-- ==== Sys2Proof/Word.lean ====
section
/-! DEFINITION. The word types of the SP2 CPU (spec/00_scope.md R6, R10). -/

namespace Sys2Proof

/-- A word: 16 bits, bit 15 the most significant (R10). Registers, addresses, data, instruction words and
execution tokens are all words (R6, R50). -/
abbrev Word := BitVec 16

/-- One cell of the host's memory form (`Host.Cell`). The SP2 itself has no byte (R50, R58). -/
abbrev Byte := BitVec 8

end Sys2Proof
end

