-- ==== Sys2Proof/Syntax.lean ====
section
/-! DEFINITION. The instructions of the SP2: one constructor for each of the 46 mnemonics of spec/opcode_table.json.
A mnemonic that the table lists in several slots is one constructor whose operand says the slot, so that every one of
the table's 110 rows is a constructor applied to a slot. -/

namespace Sys2Proof

/-- The position inside an instruction word of the next thing to execute (R33). Slot 3 is bit 15 (R80). -/
inductive Slot where
  | s0 | s1 | s2 | s3
  deriving DecidableEq, Repr

/-- The three slots that hold a 5-bit opcode (R80). -/
inductive OpSlot where
  | s0 | s1 | s2
  deriving DecidableEq, Repr

/-- The page address of a jump or call, the only immediate inside an instruction word (R85). Its width says the slot
the control opcode stands in: ten bits in slot 0 (format F0), five in slot 1 (format F1). -/
inductive PageAddr where
  | slot0 (a : BitVec 10)
  | slot1 (a : BitVec 5)
  deriving DecidableEq, Repr

/-- Where a word is read: as the instruction word whose slot `k` executes (Code State), or as an execution token
(List State). Nothing in the word says which (R93). -/
inductive Place where
  | code (k : Slot)
  | list
  deriving DecidableEq, Repr

/-- The instruction set (R95, R97): 28 non-control opcodes with the slot they stand in, 8 jumps and calls with their
page address, 5 control opcodes of slot 2, the two actions of slot 3, and the three execution tokens (R92). -/
inductive Instr where
  -- move group, spec/41_move.md
  | get (k : OpSlot)
  | pop (k : OpSlot)
  | drop (k : OpSlot)
  | push (k : OpSlot)
  -- memory group, spec/42_memory_group.md
  | lit (k : OpSlot)
  | ldri (k : OpSlot)
  | lda (k : OpSlot)
  | ldai (k : OpSlot)
  | str (k : OpSlot)
  | stri (k : OpSlot)
  | sta (k : OpSlot)
  | stai (k : OpSlot)
  -- ALU group, spec/43_alu.md
  | swap (k : OpSlot)
  | nop (k : OpSlot)
  | eqz (k : OpSlot)
  | inv (k : OpSlot)
  | add (k : OpSlot)
  | lsl (k : OpSlot)
  | asr (k : OpSlot)
  | lsr (k : OpSlot)
  | overOp (k : OpSlot)
  | dup (k : OpSlot)
  | zero (k : OpSlot)
  | one (k : OpSlot)
  | nip (k : OpSlot)
  | or (k : OpSlot)
  | xor (k : OpSlot)
  | and (k : OpSlot)
  -- control group in slots 0 and 1, spec/40_control.md
  | jmp (t : PageAddr)
  | jmpd (t : PageAddr)
  | jmpp (t : PageAddr)
  | jmpz (t : PageAddr)
  | jsr (t : PageAddr)
  | jsrn (t : PageAddr)
  | jsrp (t : PageAddr)
  | jsrz (t : PageAddr)
  -- control group in slot 2
  | into
  | exit
  | repd
  | repp
  | repz
  -- slot 3
  | nxt
  | ret
  -- execution tokens, spec/44_list_state.md; the whole token is the address (R92)
  | tokExit
  | tokCall (a : Word)
  | tokNest (a : Word)
  deriving DecidableEq, Repr

end Sys2Proof
end

