-- ==== Sys2Proof/WellFormed.lean ====
section
/-! DEFINITION. The checks an instruction must meet to have an encoding. Only the tokens have any: a code token is a
non-zero even address, a list token an odd one (R92, R211); every slot, page address and opcode is encodable (R95). -/

namespace Sys2Proof

/-- A code token's address: non-zero, bit 0 clear (R92, R211). -/
def codeTokenOk (a : Word) : Bool := a != 0 && !a.getLsbD 0

/-- A list token's address: bit 0 set (R92, R211). -/
def listTokenOk (a : Word) : Bool := a.getLsbD 0

/-- Whether an instruction has an encoding. -/
def Instr.wf : Instr → Bool
  | .tokCall a => codeTokenOk a
  | .tokNest a => listTokenOk a
  | .get _ | .pop _ | .drop _ | .push _ => true
  | .lit _ | .ldri _ | .lda _ | .ldai _ | .str _ | .stri _ | .sta _ | .stai _ => true
  | .swap _ | .nop _ | .eqz _ | .inv _ | .add _ | .lsl _ | .asr _ | .lsr _ => true
  | .overOp _ | .dup _ | .zero _ | .one _ | .nip _ | .or _ | .xor _ | .and _ => true
  | .jmp _ | .jmpd _ | .jmpp _ | .jmpz _ | .jsr _ | .jsrn _ | .jsrp _ | .jsrz _ => true
  | .into | .exit | .repd | .repp | .repz | .nxt | .ret | .tokExit => true

end Sys2Proof
end

