-- ==== Sys2Proof/Decode.lean ====
section
/-! DEFINITION. The decoder and the encoder, from spec/30_encoding.md. Every word decodes at every place (R95), so the
decoder of a word rejects nothing; what is rejected, by `wordOfBits`, is a bit string that is not one 16-bit word. -/

namespace Sys2Proof

/-! ## The fields of an instruction word (R80) -/

/-- `s3 = w[15]`. -/
def slot3Bit (w : Word) : Bool := w.getLsbD 15

/-- The five opcode bits of a slot: `op0 = w[14:10]`, `op1 = w[9:5]`, `op2 = w[4:0]`. -/
def opBits (w : Word) : OpSlot → BitVec 5
  | .s0 => w.extractLsb' 10 5
  | .s1 => w.extractLsb' 5 5
  | .s2 => w.extractLsb' 0 5

/-- A control-group opcode: upper three bits zero (R81). -/
def isControl (v : BitVec 5) : Bool := v.extractLsb' 2 3 == 0

/-- The ten page-address bits of a jump in slot 0 (R85, format F0). -/
def pageBits10 (w : Word) : PageAddr := .slot0 (w.extractLsb' 0 10)

/-- The five page-address bits of a jump in slot 1 (R85, format F1). -/
def pageBits5 (w : Word) : PageAddr := .slot1 (w.extractLsb' 0 5)

/-! ## The opcode map (R95) -/

/-- The 32 opcode values of one slot. The first four, the control group, depend on the slot and on bit 15 and are the
caller's; the other 28 mean the same in every slot (R90). -/
def decodeOpcode (k : OpSlot) (c0 c1 c2 c3 : Instr) (v : BitVec 5) : Instr :=
  match v.toNat with
  | 0 => c0
  | 1 => c1
  | 2 => c2
  | 3 => c3
  | 4 => .get k
  | 5 => .pop k
  | 6 => .drop k
  | 7 => .push k
  | 8 => .lit k
  | 9 => .ldri k
  | 10 => .lda k
  | 11 => .ldai k
  | 12 => .str k
  | 13 => .stri k
  | 14 => .sta k
  | 15 => .stai k
  | 16 => .swap k
  | 17 => .nop k
  | 18 => .eqz k
  | 19 => .inv k
  | 20 => .add k
  | 21 => .lsl k
  | 22 => .asr k
  | 23 => .lsr k
  | 24 => .overOp k
  | 25 => .dup k
  | 26 => .zero k
  | 27 => .one k
  | 28 => .nip k
  | 29 => .or k
  | 30 => .xor k
  | _ => .and k -- 0x1f, the last of the 32 values

/-- Slots 0 and 1: the control group is the jump family when bit 15 is 0 and the call family when it is 1 (R84, R95). -/
def decodeSlot01 (k : OpSlot) (t : PageAddr) (s3 : Bool) (v : BitVec 5) : Instr :=
  if s3 then decodeOpcode k (.jsr t) (.jsrn t) (.jsrp t) (.jsrz t) v
  else decodeOpcode k (.jmp t) (.jmpd t) (.jmpp t) (.jmpz t) v

/-- Slot 2: value 0x00 is `into` or `exit` by bit 15; the repeats do not look at it (R84, R95). -/
def decodeSlot2 (s3 : Bool) (v : BitVec 5) : Instr :=
  decodeOpcode .s2 (if s3 then .exit else .into) .repd .repp .repz v

/-- A token: all 16 bits zero, then bit 0 (R92, R211). -/
def decodeToken (w : Word) : Instr :=
  if w = 0 then .tokExit else if w.getLsbD 0 then .tokNest w else .tokCall w

/-- The instruction that the word `w` holds at a place: the case split of `Step()` (R90, R93). -/
def decode (pl : Place) (w : Word) : Instr :=
  match pl with
  | .code .s0 => decodeSlot01 .s0 (pageBits10 w) (slot3Bit w) (opBits w .s0)
  | .code .s1 => decodeSlot01 .s1 (pageBits5 w) (slot3Bit w) (opBits w .s1)
  | .code .s2 => decodeSlot2 (slot3Bit w) (opBits w .s2)
  | .code .s3 => if slot3Bit w then .ret else .nxt
  | .list => decodeToken w

/-- The whole instruction word in slot order, by format selection (R83): F0 is a jump alone, F1 an opcode and a jump,
F2 two opcodes and a slot 2 control opcode (with the slot 3 action that follows a failed repeat, R84), F3 three opcodes
and the slot 3 action. -/
def decodeWord (w : Word) : List Instr :=
  let i0 := decode (.code .s0) w
  let i1 := decode (.code .s1) w
  let i2 := decode (.code .s2) w
  let i3 := decode (.code .s3) w
  if isControl (opBits w .s0) then [i0]
  else if isControl (opBits w .s1) then [i0, i1]
  else if opBits w .s2 = 0 then [i0, i1, i2]
  else [i0, i1, i2, i3]

/-! ## The encoder -/

/-- A 5-bit opcode in its slot, every other bit 0 (R80). -/
def opcodeBits (k : OpSlot) (v : BitVec 5) : Word :=
  match k with
  | .s0 => (0 : BitVec 1) ++ v ++ (0 : BitVec 10)
  | .s1 => (0 : BitVec 6) ++ v ++ (0 : BitVec 5)
  | .s2 => (0 : BitVec 11) ++ v

/-- A slot 0 or slot 1 control opcode with bit 15 and its page address (R82, formats F0 and F1). -/
def controlBits (s3 : BitVec 1) (v : BitVec 5) (t : PageAddr) : Word :=
  match t with
  | .slot0 a => s3 ++ v ++ a
  | .slot1 a => s3 ++ (0 : BitVec 5) ++ v ++ a

/-- The bits an instruction has in its word (R80, R95, R98); a bit the instruction does not use is 0. -/
def encode : Instr → Word
  | .get k => opcodeBits k 0x04
  | .pop k => opcodeBits k 0x05
  | .drop k => opcodeBits k 0x06
  | .push k => opcodeBits k 0x07
  | .lit k => opcodeBits k 0x08
  | .ldri k => opcodeBits k 0x09
  | .lda k => opcodeBits k 0x0a
  | .ldai k => opcodeBits k 0x0b
  | .str k => opcodeBits k 0x0c
  | .stri k => opcodeBits k 0x0d
  | .sta k => opcodeBits k 0x0e
  | .stai k => opcodeBits k 0x0f
  | .swap k => opcodeBits k 0x10
  | .nop k => opcodeBits k 0x11
  | .eqz k => opcodeBits k 0x12
  | .inv k => opcodeBits k 0x13
  | .add k => opcodeBits k 0x14
  | .lsl k => opcodeBits k 0x15
  | .asr k => opcodeBits k 0x16
  | .lsr k => opcodeBits k 0x17
  | .overOp k => opcodeBits k 0x18
  | .dup k => opcodeBits k 0x19
  | .zero k => opcodeBits k 0x1a
  | .one k => opcodeBits k 0x1b
  | .nip k => opcodeBits k 0x1c
  | .or k => opcodeBits k 0x1d
  | .xor k => opcodeBits k 0x1e
  | .and k => opcodeBits k 0x1f
  | .jmp t => controlBits 0 0x00 t
  | .jmpd t => controlBits 0 0x01 t
  | .jmpp t => controlBits 0 0x02 t
  | .jmpz t => controlBits 0 0x03 t
  | .jsr t => controlBits 1 0x00 t
  | .jsrn t => controlBits 1 0x01 t
  | .jsrp t => controlBits 1 0x02 t
  | .jsrz t => controlBits 1 0x03 t
  | .into => opcodeBits .s2 0x00
  | .exit => 0x8000 ||| opcodeBits .s2 0x00
  | .repd => opcodeBits .s2 0x01
  | .repp => opcodeBits .s2 0x02
  | .repz => opcodeBits .s2 0x03
  | .nxt => 0x0000
  | .ret => 0x8000
  | .tokExit => 0x0000
  | .tokCall a => a
  | .tokNest a => a

/-- The instruction word that packs the given instructions: the union of their bits. -/
def encodeWord : List Instr → Word
  | [] => 0
  | i :: is => encode i ||| encodeWord is

/-- The opcode slot as a position of the sequencer. -/
def OpSlot.toSlot : OpSlot → Slot
  | .s0 => .s0
  | .s1 => .s1
  | .s2 => .s2

/-- The slot a jump's page address stands for (R82). -/
def PageAddr.slot : PageAddr → Slot
  | .slot0 _ => .s0
  | .slot1 _ => .s1

/-- Where an instruction stands: its slot of an instruction word, or a token (the table's `format` column, R98). -/
def Instr.place : Instr → Place
  | .get k | .pop k | .drop k | .push k | .lit k | .ldri k | .lda k
  | .ldai k | .str k | .stri k | .sta k | .stai k | .swap k | .nop k
  | .eqz k | .inv k | .add k | .lsl k | .asr k | .lsr k | .overOp k
  | .dup k | .zero k | .one k | .nip k | .or k | .xor k | .and k => .code k.toSlot
  | .jmp t | .jmpd t | .jmpp t | .jmpz t | .jsr t | .jsrn t | .jsrp t | .jsrz t => .code t.slot
  | .into | .exit | .repd | .repp | .repz => .code .s2
  | .nxt | .ret => .code .s3
  | .tokExit | .tokCall _ | .tokNest _ => .list

/-! ## The host's table words -/

/-- Bits as one instruction word: anything past 16 bits is rejected (R93: "every instruction word and every token is
exactly one 16-bit word"). -/
def wordOfBits (nbits w : Nat) : Option Word :=
  if w < 65536 ∧ w < 2 ^ nbits then some (BitVec.ofNat 16 w) else none

/-- The slot a row's bits stand in, when the word holds that one row's bits and zeros: the first slot whose opcode bits
are not all zero, and slot 0 when all are. A word of the table does not say its own place (log entry 5). -/
def rowSlot (w : Word) : Slot :=
  if opBits w .s0 ≠ 0 then .s0
  else if opBits w .s1 ≠ 0 then .s1
  else if opBits w .s2 ≠ 0 then .s2
  else .s0

/-- What the decoder reads from a table row's bits: `decode` at the slot the row's bits stand in (log entry 5). -/
def decodeTableWord (nbits w : Nat) : Option Instr :=
  match wordOfBits nbits w with
  | some v => some (decode (.code (rowSlot v)) v)
  | none => none

end Sys2Proof
end

