-- ==== Sys2Proof/Config.lean ====
section
/-! DEFINITION. What an implementation fixes and what the model's log names: stack depths, the content of memory
that nothing has written, the reset value of everything the spec leaves unspecified at reset, and the two free
values of the platform: the word a device returns where no reply of it was given, and what happens at a token fetch where
no answer was given. -/

namespace Sys2Proof.Config

/-- `N_DS`, the number of cells of DS right after reset. Rule R7 leaves it to the implementation; 256 is the source's
"current implementation". DESIGN CHOICE, unsafe (log entry 1): only `State.reset` uses it; every operation reads the
depth from the stack it works on, and `State.resetWith` takes it as an argument. -/
def dsDepth : Nat := 256

/-- `N_RS`, the number of cells of RS right after reset (R7). DESIGN CHOICE, unsafe (log entry 1). -/
def rsDepth : Nat := 256

/-- What a memory cell that nothing has written reads as (R52, U8 leave it open). DESIGN CHOICE, unsafe (log entry 3). -/
def unlistedByte : Byte := 0

/-- What a word of memory that nothing has written reads as: both of its cells unlisted. -/
def unlistedWord : Word := unlistedByte ++ unlistedByte

/-- The value of A, D, R and of every cell of DS and RS right after reset, which rule R40 leaves unspecified.
DESIGN CHOICE, unsafe (log entry 2). -/
def resetWord : Word := 0

/-- The word the platform returns for the `n`-th access of a run behind a device window, at an address, when
`Devices.replies` holds none for it. R52 and R54 say "whatever the platform returns" and no more: a FREE VALUE, about
which nothing can be proved (log entry 24). -/
opaque deviceWord : Nat → Word → Word

/-- What the platform does at the `n`-th token fetch that `LaterAnswers.free` answers: the token it injects with `hold`
high, or none with `hold` low. R234 calls it an arbitrary input: a FREE VALUE, about which nothing can be proved (log
entry 25). -/
opaque injected : Nat → Option Word

end Sys2Proof.Config
end

