-- ==== Sys2Proof/Machine/State.lean ====
section
/-! DEFINITION. The state of the SP2 CPU (spec/10_state.md), the platform behind its bus (spec/20_memory.md R52): memory,
device windows and the answers to the token fetches to come (spec/60_exceptions.md R233), and the machine right after
reset. -/

namespace Sys2Proof.Machine

/-- A stack memory, DS or RS (R23, R25): an array of cells and the hidden index of the newest one (R26, R28). -/
structure Stack where
  /-- The cells `ds[0 .. N-1]`; their number is the depth `N_DS` or `N_RS` (R7). -/
  cells : List Word
  /-- The hidden index, `dp` or `rp` (R26, R28). No instruction can read it. -/
  index : Nat
  deriving DecidableEq, Repr

/-- Plain memory (R52) in the host's canonical form: cells `(address, byte)` with rising addresses and none equal to
`Config.unlistedByte`. The word at word address `a` is held in the cells `2 * a` (low byte) and `2 * a + 1` (high
byte), which no instruction can observe (R58). DESIGN CHOICE, safe (log entry 4). -/
structure Memory where
  cells : List Host.Cell
  deriving DecidableEq, Repr

/-- A range of addresses, both ends included, behind which the platform has something other than plain memory. -/
structure Window where
  first : Word
  last : Word
  deriving DecidableEq, Repr

/-- The part of the platform that is not plain memory, as data (R7, R52: which addresses are devices and what a read
there returns are the application's). Any device, ROM, hole or memory shared with another bus master is a window whose
replies are whatever it returns. The model's own fields (log entry 7). -/
structure Devices where
  /-- Which addresses are not plain memory; none of them, for the plain memory of R52. -/
  windows : List Window
  /-- What the reads and fetches behind the windows return, the next one first. -/
  replies : List Word
  /-- How many reads and fetches the windows have answered: the counter of the free value `Config.deviceWord`, which
  is returned once `replies` is used up. -/
  reads : Nat
  deriving DecidableEq, Repr

/-- The execution state: whether I holds an instruction word or an execution token (R32). -/
inductive ExecState where
  | code | list
  deriving DecidableEq, Repr

/-- What the platform does at one token fetch (R233, R234): leave `hold` low, so that the token comes from memory, or
raise `hold` and drive a token of its own on `cdi`. -/
inductive TokenAnswer where
  | memory
  | inject (token : Word)
  deriving DecidableEq, Repr

/-- What the platform does at the token fetches past the listed ones (R234: an arbitrary input at any token fetch). -/
inductive LaterAnswers where
  /-- The same at each of them, for ever: `.memory` is a platform that interrupts no more, `.inject` a stuck interrupt
  line. -/
  | same (answer : TokenAnswer)
  /-- Anything at each of them: the free value `Config.injected`, whose counter `n` each of them moves on. -/
  | free (n : Nat)
  deriving DecidableEq, Repr

/-- What the platform does at every token fetch to come (R233, R234). The model's own field (log entry 6). -/
structure TokenAnswers where
  /-- At the next ones, the next one first. -/
  first : List TokenAnswer
  /-- And at all that follow. -/
  later : LaterAnswers
  deriving DecidableEq, Repr

/-- What the CPU's output pins showed in a step (R53): `data`, `read`, `next`, `cda` and `cdo`. -/
inductive BusAccess where
  /-- No access: `data` low, `read` low. -/
  | none
  /-- An instruction-word fetch at `a`: `data` low, `read` high, `next` low. -/
  | fetchWord (a : Word)
  /-- An execution-token fetch at `a`: `data` low, `read` high, `next` high. -/
  | fetchToken (a : Word)
  /-- A data read at `a`: `data` high, `read` high. -/
  | read (a : Word)
  /-- A data write of `v` at `a`: `data` high, `read` low. -/
  | write (a : Word) (v : Word)
  deriving DecidableEq, Repr

/-- The whole machine: the seven programmer-visible entities (R20), the two pieces of hidden state (R32, R33), and the
platform as the CPU meets it (R52, R53, R233). -/
structure State where
  /-- A, the top of the data stack (R21). -/
  a : Word
  /-- D, the second element of the data stack (R22). -/
  d : Word
  /-- R, the top of the return stack (R24). -/
  r : Word
  /-- P, the program counter (R35). -/
  p : Word
  /-- I, the current instruction word or execution token (R37). -/
  i : Word
  /-- DS, the data stack below D (R23). -/
  ds : Stack
  /-- RS, the return stack below R (R25). -/
  rs : Stack
  /-- `state`, Code State or List State (R32). -/
  execState : ExecState
  /-- `slot`, the slot of I that executes next; without meaning in List State (R33). -/
  slot : Slot
  /-- The plain memory behind the bus (R50, R52). -/
  mem : Memory
  /-- What else is behind the bus (R7, R52). -/
  devices : Devices
  /-- The platform's answers to the token fetches to come (R233, R234). -/
  answers : TokenAnswers
  /-- The access the last step made (R51, R53): the output pins. -/
  bus : BusAccess
  deriving DecidableEq, Repr

/-- The SP2 has no fault of any kind (R230: "the SP2 raises no synchronous exception"), so there is no constructor:
nothing raises one, which is safe because there is nothing to leave out. -/
inductive Fault
  deriving DecidableEq, Repr

/-- Why a step can have no meaning. -/
inductive Refusal where
  /-- Raised by an arm of `exec` whose instruction has no meaning yet; no arm raises it, and raising it would be safe. -/
  | notModelled (mnemonic : String)
  deriving DecidableEq, Repr

/-- A stack memory right after reset. Its cells and its index are unspecified (R40): DESIGN CHOICE (log entry 2). -/
def Stack.reset (depth : Nat) : Stack := ⟨List.replicate depth Config.resetWord, 0⟩

/-- The machine right after reset (R40, R260): the reset fetch of the word at address 0 is done, so I holds that word,
P is 1, and slot 0 of it executes next in Code State. Memory lists nothing and the platform is plain memory without
interrupts (log entries 3, 6 and 7). A, D, R, DS and RS are unspecified by the spec and hold what Config names (DESIGN
CHOICE, log entry 2). -/
def State.reset : State where
  a := Config.resetWord
  d := Config.resetWord
  r := Config.resetWord
  p := 1
  i := Config.unlistedWord
  ds := Stack.reset Config.dsDepth
  rs := Stack.reset Config.rsDepth
  execState := .code
  slot := .s0
  mem := ⟨[]⟩
  devices := ⟨[], [], 0⟩
  answers := ⟨[], .same .memory⟩
  bus := .fetchWord 0

end Sys2Proof.Machine
end

