-- ==== Sys2Proof/Machine/Flags.lean ====
section
/-! DEFINITION. The SP2 has no flags (R38). What other machines do with them is here: the conditions, tested directly
on register contents (R110), and the arithmetic that delivers its carry or shifted-out bit in a register (R185 to
R188). -/

namespace Sys2Proof.Machine

/-! ## Conditions (R110) -/

/-- `R != 0`, the condition of `jmpd`, `jsrn` and `repd`. -/
def State.rNonZero (s : State) : Bool := s.r != 0

/-- `A[15] = 0` ("positive"; zero counts as positive), the condition of `jmpp`, `jsrp` and `repp`. -/
def State.aPositive (s : State) : Bool := !s.a.getLsbD 15

/-- `A = 0`, the condition of `jmpz`, `jsrz` and `repz`. -/
def State.aZero (s : State) : Bool := s.a == 0

/-! ## The sum of `add` (R185) -/

/-- `s = zext_17(A) + zext_17(D)`. -/
def sum17 (a d : Word) : BitVec 17 := a.setWidth 17 + d.setWidth 17

/-- The new A of `add`: `s[15:0]`. -/
def sumLow (a d : Word) : Word := (sum17 a d).extractLsb' 0 16

/-- The new D of `add`: the carry `s[16]`, as 0x0000 or 0x0001. -/
def sumCarry (a d : Word) : Word := ((sum17 a d).extractLsb' 16 1).setWidth 16

/-! ## One-bit shifts of the pair D.A, D the high half (R180, R186 to R188) -/

/-- `lsl`: new A, `{A[14:0], 0}`. -/
def lslLow (a : Word) : Word := a.extractLsb' 0 15 ++ (0 : BitVec 1)

/-- `lsl`: new D, `{D[14:0], A[15]}`. -/
def lslHigh (a d : Word) : Word := d.extractLsb' 0 15 ++ a.extractLsb' 15 1

/-- `asr` and `lsr`: new A, `{D[0], A[15:1]}`. -/
def shrLow (a d : Word) : Word := d.extractLsb' 0 1 ++ a.extractLsb' 1 15

/-- `asr`: new D, `{D[15], D[15:1]}`. -/
def asrHigh (d : Word) : Word := d.extractLsb' 15 1 ++ d.extractLsb' 1 15

/-- `lsr`: new D, `{0, D[15:1]}`. -/
def lsrHigh (d : Word) : Word := (0 : BitVec 1) ++ d.extractLsb' 1 15

/-- `eqz`: 0xffff for zero, 0 for everything else (R183). -/
def zeroTest (a : Word) : Word := if a = 0 then 0xffff else 0x0000

end Sys2Proof.Machine
end

