-- ==== Sys2Proof/Machine/Operands.lean ====
section
/-! DEFINITION. The operand forms. Every operand of the SP2 is implied by the opcode but one, the page address of a jump
or call (R85, R86); a memory operand's address is the whole content of P, R or A (R158). -/

namespace Sys2Proof.Machine

/-- The address a page address stands for (R85, R111): it replaces the low 10 or 5 bits of P. -/
def pageTarget (t : PageAddr) (p : Word) : Word :=
  match t with
  | .slot0 a => p.extractLsb' 10 6 ++ a
  | .slot1 a => p.extractLsb' 5 11 ++ a

/-- The slot after an opcode's slot (R90). -/
def nextSlot : OpSlot → Slot
  | .s0 => .s1
  | .s1 => .s2
  | .s2 => .s3

/-- Increment by one word, modulo 2^16: post-increment of P, R and A and the P of a fetch (R11, R158). -/
def incr (v : Word) : Word := v + 1

/-- Decrement by one, modulo 2^16: the R of `jmpd` and `repd`, only done when non-zero (R115, R127). -/
def decr (v : Word) : Word := v - 1

end Sys2Proof.Machine
end

