-- ==== Sys2Proof/Machine/Ops.lean ====
section
/-! DEFINITION. The named operations over stacks, memory, registers and the sequencer that every meaning is made of. -/

namespace Sys2Proof.Machine

/-! ## Stack memories (R26 to R30) -/

/-- `N_DS` or `N_RS`: how many cells the stack memory has. -/
def Stack.depth (st : Stack) : Nat := st.cells.length

/-- `Push(v)`: move the index up by one modulo the depth and write the cell there (R26, R28). -/
def Stack.push (st : Stack) (v : Word) : Stack :=
  let j := (st.index + 1) % st.depth
  ⟨st.cells.set j v, j⟩

/-- The word `Pop()` returns: the cell at the index (R27, R29). The default is for a stack whose index names no cell,
which `Stack.wf` excludes. -/
def Stack.top (st : Stack) : Word := st.cells.getD st.index Config.resetWord

/-- The stack after `Pop()`: the index moves down by one modulo the depth; the cell read is not erased (R27, R29). -/
def Stack.popped (st : Stack) : Stack := ⟨st.cells, (st.index + st.depth - 1) % st.depth⟩

/-- At least one cell, and an index that names one (R7, R26). -/
def Stack.wf (st : Stack) : Bool := decide (st.index < st.depth)

/-- The cell `c_k = ds[(dp - k) mod N]` of the list view (R30). -/
def Stack.nthNewest (st : Stack) (k : Nat) : Word :=
  st.cells.getD ((st.index + st.depth - k) % st.depth) Config.resetWord

/-- The list view `[c0, c1, ..., c(N-1)]`, newest first (R30). -/
def Stack.toList (st : Stack) : List Word := (List.range st.depth).map st.nthNewest

/-- Push the words of a list one after another, its head first. -/
def Stack.pushAll (st : Stack) : List Word → Stack
  | [] => st
  | v :: vs => (st.push v).pushAll vs

/-- Pop `n` times: the words returned, the first pop's first, and the stack left. -/
def Stack.popMany : Nat → Stack → List Word × Stack
  | 0, st => ([], st)
  | n + 1, st => (st.top :: (popMany n st.popped).1, (popMany n st.popped).2)

/-! ## Memory (R50, R52, R54 to R56) -/

/-- The byte at a cell address; `Config.unlistedByte` where no cell is listed. -/
def readCells : List Host.Cell → Nat → Byte
  | [], _ => Config.unlistedByte
  | (k, b) :: rest, n => if n = k then b else readCells rest n

/-- Write one cell and keep the canonical form: an unlisted address's own value is not listed. -/
def writeCells : List Host.Cell → Nat → Byte → List Host.Cell
  | [], n, v => if v = Config.unlistedByte then [] else [(n, v)]
  | (k, b) :: rest, n, v =>
    if n < k then if v = Config.unlistedByte then (k, b) :: rest else (n, v) :: (k, b) :: rest
    else if n = k then if v = Config.unlistedByte then rest else (n, v) :: rest
    else (k, b) :: writeCells rest n v

/-- Cells from `lo` on: addresses strictly rising and inside the two cells of each of the 65536 words, and no cell that
holds what an unlisted address reads as. -/
def canonicalFrom : Nat → List Host.Cell → Bool
  | _, [] => true
  | lo, (k, b) :: rest =>
    decide (lo ≤ k) && decide (k < 131072) && b != Config.unlistedByte && canonicalFrom (k + 1) rest

/-- Memory is in its canonical form. -/
def Memory.wf (m : Memory) : Bool := canonicalFrom 0 m.cells

/-- The word at a word address: what `MemRead` and `MemFetch` return on plain memory (R52, R54, R56). -/
def Memory.readWord (m : Memory) (a : Word) : Word :=
  readCells m.cells (2 * a.toNat + 1) ++ readCells m.cells (2 * a.toNat)

/-- `MemWrite(a, 1, v)` on plain memory: `mem[a] <- v` and nothing else (R52, R55). -/
def Memory.writeWord (m : Memory) (a v : Word) : Memory :=
  ⟨writeCells (writeCells m.cells (2 * a.toNat) (v.extractLsb' 0 8)) (2 * a.toNat + 1) (v.extractLsb' 8 8)⟩

/-! ## Devices (R7, R52, R54) -/

/-- Whether an address lies behind a device window. -/
def Devices.covers (dv : Devices) (a : Word) : Bool :=
  dv.windows.any fun w => decide (w.first.toNat ≤ a.toNat) && decide (a.toNat ≤ w.last.toNat)

/-- The word a read or fetch of a window returns: "whatever the platform returns" (R54). -/
def Devices.reply (dv : Devices) (a : Word) : Word :=
  match dv.replies with
  | [] => Config.deviceWord dv.reads a
  | w :: _ => w

/-- The windows after a read or fetch at `a`: one reply is used up when `a` is theirs. -/
def Devices.afterRead (dv : Devices) (a : Word) : Devices :=
  if dv.covers a then ⟨dv.windows, dv.replies.tail, dv.reads + 1⟩ else dv

/-! ## The answers to token fetches (R233, R234) -/

/-- What the platform does at the next token fetch once the listed answers are used up. -/
def LaterAnswers.answer : LaterAnswers → TokenAnswer
  | .same answer => answer
  | .free n =>
    match Config.injected n with
    | some token => .inject token
    | none => .memory

/-- What is left of that for the token fetches after it. -/
def LaterAnswers.after : LaterAnswers → LaterAnswers
  | .same answer => .same answer
  | .free n => .free (n + 1)

/-- What the platform does at the next token fetch: `Interrupt()` and `InjectedToken()` there. -/
def TokenAnswers.next (as : TokenAnswers) : TokenAnswer :=
  match as.first with
  | [] => as.later.answer
  | answer :: _ => answer

/-- What is left for the token fetches after it. -/
def TokenAnswers.rest (as : TokenAnswers) : TokenAnswers :=
  match as.first with
  | [] => ⟨[], as.later.after⟩
  | _ :: answers => ⟨answers, as.later⟩

/-! ## One field at a time -/

def State.setA (s : State) (v : Word) : State := { s with a := v }
def State.setD (s : State) (v : Word) : State := { s with d := v }
def State.setR (s : State) (v : Word) : State := { s with r := v }
def State.setP (s : State) (v : Word) : State := { s with p := v }
def State.setI (s : State) (v : Word) : State := { s with i := v }
def State.setDS (s : State) (v : Stack) : State := { s with ds := v }
def State.setRS (s : State) (v : Stack) : State := { s with rs := v }
def State.setExecState (s : State) (v : ExecState) : State := { s with execState := v }
def State.setSlot (s : State) (v : Slot) : State := { s with slot := v }
def State.setMem (s : State) (v : Memory) : State := { s with mem := v }
def State.setDevices (s : State) (v : Devices) : State := { s with devices := v }
def State.setAnswers (s : State) (v : TokenAnswers) : State := { s with answers := v }
def State.setBus (s : State) (v : BusAccess) : State := { s with bus := v }

/-! ## Stack primitives of the CPU (R14) -/

/-- `PushDS(v)`. -/
def State.pushDS (s : State) (v : Word) : State := s.setDS (s.ds.push v)

/-- `D <- PopDS()`. -/
def State.popDSToD (s : State) : State := (s.setD s.ds.top).setDS s.ds.popped

/-- `PushRS(v)`. -/
def State.pushRS (s : State) (v : Word) : State := s.setRS (s.rs.push v)

/-- `R <- PopRS()`. -/
def State.popRSToR (s : State) : State := (s.setR s.rs.top).setRS s.rs.popped

/-! ## Memory primitives of the CPU (R15) -/

/-- The word a data read or a fetch at `a` returns (R54, R56): the device's where a window covers `a`, else memory's. -/
def State.memRead (s : State) (a : Word) : Word :=
  if s.devices.covers a then s.devices.reply a else s.mem.readWord a

/-- The platform has answered a read or fetch at `a`. -/
def State.answered (s : State) (a : Word) : State := s.setDevices (s.devices.afterRead a)

/-- Plain memory after `MemWrite(a, 1, v)`. What a device does with a word written to it is the platform's own (R52): it
leaves plain memory alone and shows in what the device replies later. -/
def State.writtenMem (s : State) (a v : Word) : Memory :=
  if s.devices.covers a then s.mem else s.mem.writeWord a v

/-- `MemWrite(a, 1, v)` (R55). -/
def State.memWrite (s : State) (a v : Word) : State := s.setMem (s.writtenMem a v)

/-- `PushDS(D); D <- MemRead(a, 1)`, what every load does (R159). -/
def State.loadD (s : State) (a : Word) : State := ((s.pushDS s.d).setD (s.memRead a)).answered a

/-! ## The sequencer -/

/-- The end of a non-control opcode's step: the slot advances (R90) and the pins show its one access (R51). -/
def State.advance (s : State) (k : OpSlot) (acc : BusAccess) : State := (s.setSlot (nextSlot k)).setBus acc

/-- `FetchWord(a)` (R16). -/
def State.fetchWord (s : State) (a : Word) : State :=
  (((((s.setI (s.memRead a)).answered a).setP (incr a)).setExecState .code).setSlot .s0).setBus (.fetchWord a)

/-- `FetchToken(a)` with `hold` low (R16): the token is what stands at `a`, and P moves past it. -/
def State.takeToken (s : State) (a : Word) : State :=
  (((((s.setI (s.memRead a)).answered a).setP (incr a)).setExecState .list).setSlot .s0).setBus (.fetchToken a)

/-- Taking an interrupt, the SP2's only exceptional event (R233): the platform's token goes to I and P keeps the fetch
address, so that the displaced token is fetched when the routine returns. What stands at `a` is not read (log entry
23). -/
def State.takeInjected (s : State) (a token : Word) : State :=
  ((((s.setI token).setP a).setExecState .list).setSlot .s0).setBus (.fetchToken a)

/-- `FetchToken(a)` (R16, R233): the platform's next answer decides whether `hold` is high at this fetch. -/
def State.fetchToken (s : State) (a : Word) : State :=
  match s.answers.next with
  | .memory => (s.setAnswers s.answers.rest).takeToken a
  | .inject token => (s.setAnswers s.answers.rest).takeInjected a token

/-- Call linkage (R122): `PushRS(R); R <- P`. -/
def State.link (s : State) : State := (s.pushRS s.r).setR s.p

/-- Return to a list, and so from an interrupt (R122, R239): `FetchToken(R); R <- PopRS()`. -/
def State.returnToList (s : State) : State := (s.fetchToken s.r).popRSToR

/-- Return to code (R131): `FetchWord(R); R <- PopRS()`. -/
def State.returnToCode (s : State) : State := (s.fetchWord s.r).popRSToR

/-- A jump (R112, R113): to the target when taken, else the next word at P. -/
def State.jumpIf (s : State) (taken : Bool) (t : PageAddr) : State :=
  if taken then s.fetchWord (pageTarget t s.p) else s.fetchWord s.p

/-- A call (R112, R113): link and go to the target when taken, else the next word at P. -/
def State.callIf (s : State) (taken : Bool) (t : PageAddr) : State :=
  if taken then s.link.fetchWord (pageTarget t s.p) else s.fetchWord s.p

/-- A repeat (R124, R127 to R129): slot 0 of the word in I when the condition holds, else slot 3. Nothing is fetched. -/
def State.repeatIf (s : State) (again : Bool) : State :=
  (s.setSlot (if again then .s0 else .s3)).setBus .none

/-! ## Reset (R260) -/

/-- A reset of the machine `s` (R260, R261): `FetchWord(0)`. Its A, D, R, stack cells and indices are the values that
R40 leaves unspecified, its stacks have the implementation's depths, and its memory, devices and answers are the
platform: over every `s` these are every value the spec allows. -/
def State.resetFrom (s : State) : State := s.fetchWord 0

/-- The parameters the spec leaves to the implementation (R7): `N_DS`, `N_RS` and `Platform`. -/
structure Params where
  dsDepth : Nat
  rsDepth : Nat
  mem : Memory
  devices : Devices
  answers : TokenAnswers
  deriving DecidableEq, Repr

/-- `State.reset` on an implementation of one's choice, before its reset fetch. -/
def Params.machine (q : Params) : State :=
  ((((State.reset.setDS (Stack.reset q.dsDepth)).setRS (Stack.reset q.rsDepth)).setMem q.mem).setDevices
    q.devices).setAnswers q.answers

/-- The machine right after reset on an implementation of one's choice (R7, R260); what the spec leaves unspecified is as
in `State.reset`. -/
def State.resetWith (q : Params) : State := q.machine.resetFrom

end Sys2Proof.Machine
end

