-- ==== Sys2Proof/Machine/Alu.lean ====
section
/-! DEFINITION. The ALU group (spec/43_alu.md R180 to R198). Every right-hand side reads the state `s` before the opcode (R13). -/

namespace Sys2Proof.Machine

/-- `swap` (R181): `A <- D; D <- A`. -/
def execSwap (k : OpSlot) (s : State) : Host.Outcome State Fault Refusal :=
  .next (((s.setA s.d).setD s.a).advance k .none)

/-- `nop` (R182): `nothing`. -/
def execNop (k : OpSlot) (s : State) : Host.Outcome State Fault Refusal :=
  .next (s.advance k .none)

/-- `eqz` (R183): `A <- (if A = 0 then 0xffff else 0x0000)`. -/
def execEqz (k : OpSlot) (s : State) : Host.Outcome State Fault Refusal :=
  .next ((s.setA (zeroTest s.a)).advance k .none)

/-- `inv` (R184): `A <- ~A`. -/
def execInv (k : OpSlot) (s : State) : Host.Outcome State Fault Refusal :=
  .next ((s.setA (~~~s.a)).advance k .none)

/-- `add` (R185): `A <- s[15:0]; D <- zext_16(s[16])`. -/
def execAdd (k : OpSlot) (s : State) : Host.Outcome State Fault Refusal :=
  .next (((s.setA (sumLow s.a s.d)).setD (sumCarry s.a s.d)).advance k .none)

/-- `lsl` (R186): `D <- { D[14:0], A[15] }; A <- { A[14:0], 0 }`. -/
def execLsl (k : OpSlot) (s : State) : Host.Outcome State Fault Refusal :=
  .next (((s.setD (lslHigh s.a s.d)).setA (lslLow s.a)).advance k .none)

/-- `asr` (R187): `A <- { D[0], A[15:1] }; D <- { D[15], D[15:1] }`. -/
def execAsr (k : OpSlot) (s : State) : Host.Outcome State Fault Refusal :=
  .next (((s.setA (shrLow s.a s.d)).setD (asrHigh s.d)).advance k .none)

/-- `lsr` (R188): `A <- { D[0], A[15:1] }; D <- { 0, D[15:1] }`. -/
def execLsr (k : OpSlot) (s : State) : Host.Outcome State Fault Refusal :=
  .next (((s.setA (shrLow s.a s.d)).setD (lsrHigh s.d)).advance k .none)

/-- `over` (R189): `PushDS(D); A <- D; D <- A`. -/
def execOver (k : OpSlot) (s : State) : Host.Outcome State Fault Refusal :=
  .next ((((s.pushDS s.d).setA s.d).setD s.a).advance k .none)

/-- `dup` (R190): `PushDS(D); D <- A`. -/
def execDup (k : OpSlot) (s : State) : Host.Outcome State Fault Refusal :=
  .next (((s.pushDS s.d).setD s.a).advance k .none)

/-- `zero` (R191): `PushDS(D); D <- A; A <- 0x0000`. -/
def execZero (k : OpSlot) (s : State) : Host.Outcome State Fault Refusal :=
  .next ((((s.pushDS s.d).setD s.a).setA 0x0000).advance k .none)

/-- `one` (R192): `PushDS(D); D <- A; A <- 0x0001`. -/
def execOne (k : OpSlot) (s : State) : Host.Outcome State Fault Refusal :=
  .next ((((s.pushDS s.d).setD s.a).setA 0x0001).advance k .none)

/-- `nip` (R193): `D <- PopDS()`. -/
def execNip (k : OpSlot) (s : State) : Host.Outcome State Fault Refusal :=
  .next ((s.popDSToD).advance k .none)

/-- `or` (R194): `A <- A | D; D <- PopDS()`. -/
def execOr (k : OpSlot) (s : State) : Host.Outcome State Fault Refusal :=
  .next (((s.setA (s.a ||| s.d)).popDSToD).advance k .none)

/-- `xor` (R195): `A <- A ^ D; D <- PopDS()`. -/
def execXor (k : OpSlot) (s : State) : Host.Outcome State Fault Refusal :=
  .next (((s.setA (s.a ^^^ s.d)).popDSToD).advance k .none)

/-- `and` (R196): `A <- A & D; D <- PopDS()`. -/
def execAnd (k : OpSlot) (s : State) : Host.Outcome State Fault Refusal :=
  .next (((s.setA (s.a &&& s.d)).popDSToD).advance k .none)

end Sys2Proof.Machine
end

