-- ==== Sys2Proof/Machine/Control.lean ====
section
/-! DEFINITION. The control group and the two actions of slot 3 (spec/40_control.md R110 to R131). Every right-hand side reads the state `s` before the opcode (R13). -/

namespace Sys2Proof.Machine

/-- `jmp` (R114): `FetchWord(target)`. -/
def execJmp (t : PageAddr) (s : State) : Host.Outcome State Fault Refusal :=
  .next (s.jumpIf true t)

/-- `jmpd` (R115): `if R != 0 then R <- R - 1; FetchWord(target) else R <- PopRS(); FetchWord(P)`. -/
def execJmpd (t : PageAddr) (s : State) : Host.Outcome State Fault Refusal :=
  .next (if s.rNonZero then (s.setR (decr s.r)).jumpIf true t else s.popRSToR.jumpIf false t)

/-- `jmpp` (R116): `if A[15] = 0 then FetchWord(target) else FetchWord(P)`. -/
def execJmpp (t : PageAddr) (s : State) : Host.Outcome State Fault Refusal :=
  .next (s.jumpIf s.aPositive t)

/-- `jmpz` (R117): `if A = 0 then FetchWord(target) else FetchWord(P)`. -/
def execJmpz (t : PageAddr) (s : State) : Host.Outcome State Fault Refusal :=
  .next (s.jumpIf s.aZero t)

/-- `jsr` (R118): `PushRS(R); R <- P; FetchWord(target)`. -/
def execJsr (t : PageAddr) (s : State) : Host.Outcome State Fault Refusal :=
  .next (s.callIf true t)

/-- `jsrn` (R119): `if R != 0 then PushRS(R); R <- P; FetchWord(target) else FetchWord(P)`. -/
def execJsrn (t : PageAddr) (s : State) : Host.Outcome State Fault Refusal :=
  .next (s.callIf s.rNonZero t)

/-- `jsrp` (R120): `if A[15] = 0 then PushRS(R); R <- P; FetchWord(target) else FetchWord(P)`. -/
def execJsrp (t : PageAddr) (s : State) : Host.Outcome State Fault Refusal :=
  .next (s.callIf s.aPositive t)

/-- `jsrz` (R121): `if A = 0 then PushRS(R); R <- P; FetchWord(target) else FetchWord(P)`. -/
def execJsrz (t : PageAddr) (s : State) : Host.Outcome State Fault Refusal :=
  .next (s.callIf s.aZero t)

/-- `into` (R125): `FetchToken(P)`. -/
def execInto (s : State) : Host.Outcome State Fault Refusal :=
  .next (s.fetchToken s.p)

/-- `exit` (R126): `FetchToken(R); R <- PopRS()`. -/
def execExit (s : State) : Host.Outcome State Fault Refusal :=
  .next (s.returnToList)

/-- `repd` (R127): `if R != 0 then R <- R - 1; slot <- 0 else R <- PopRS(); slot <- 3`. -/
def execRepd (s : State) : Host.Outcome State Fault Refusal :=
  .next (if s.rNonZero then (s.setR (decr s.r)).repeatIf true else s.popRSToR.repeatIf false)

/-- `repp` (R128): `if A[15] = 0 then slot <- 0 else slot <- 3`. -/
def execRepp (s : State) : Host.Outcome State Fault Refusal :=
  .next (s.repeatIf s.aPositive)

/-- `repz` (R129): `if A = 0 then slot <- 0 else slot <- 3`. -/
def execRepz (s : State) : Host.Outcome State Fault Refusal :=
  .next (s.repeatIf s.aZero)

/-- `nxt` (R130): `FetchWord(P)`. -/
def execNxt (s : State) : Host.Outcome State Fault Refusal :=
  .next (s.fetchWord s.p)

/-- `ret` (R131): `FetchWord(R); R <- PopRS()`. -/
def execRet (s : State) : Host.Outcome State Fault Refusal :=
  .next (s.returnToCode)

end Sys2Proof.Machine
end

