-- ==== Sys2Proof/Machine/MemoryGroup.lean ====
section
/-! DEFINITION. The memory group (spec/42_memory_group.md R158 to R168). Every right-hand side reads the state `s` before the opcode (R13). -/

namespace Sys2Proof.Machine

/-- `lit` (R160): `PushDS(D); D <- MemRead(P, 1); P <- P + 1`. -/
def execLit (k : OpSlot) (s : State) : Host.Outcome State Fault Refusal :=
  .next (((s.loadD s.p).setP (incr s.p)).advance k (.read s.p))

/-- `ldri` (R161): `PushDS(D); D <- MemRead(R, 1); R <- R + 1`. -/
def execLdri (k : OpSlot) (s : State) : Host.Outcome State Fault Refusal :=
  .next (((s.loadD s.r).setR (incr s.r)).advance k (.read s.r))

/-- `lda` (R162): `PushDS(D); D <- MemRead(A, 1)`. -/
def execLda (k : OpSlot) (s : State) : Host.Outcome State Fault Refusal :=
  .next ((s.loadD s.a).advance k (.read s.a))

/-- `ldai` (R163): `PushDS(D); D <- MemRead(A, 1); A <- A + 1`. -/
def execLdai (k : OpSlot) (s : State) : Host.Outcome State Fault Refusal :=
  .next (((s.loadD s.a).setA (incr s.a)).advance k (.read s.a))

/-- `str` (R164): `MemWrite(R, 1, D); D <- PopDS()`. -/
def execStr (k : OpSlot) (s : State) : Host.Outcome State Fault Refusal :=
  .next (((s.memWrite s.r s.d).popDSToD).advance k (.write s.r s.d))

/-- `stri` (R165): `MemWrite(R, 1, D); D <- PopDS(); R <- R + 1`. -/
def execStri (k : OpSlot) (s : State) : Host.Outcome State Fault Refusal :=
  .next ((((s.memWrite s.r s.d).popDSToD).setR (incr s.r)).advance k (.write s.r s.d))

/-- `sta` (R166): `MemWrite(A, 1, D); D <- PopDS()`. -/
def execSta (k : OpSlot) (s : State) : Host.Outcome State Fault Refusal :=
  .next (((s.memWrite s.a s.d).popDSToD).advance k (.write s.a s.d))

/-- `stai` (R167): `MemWrite(A, 1, D); D <- PopDS(); A <- A + 1`. -/
def execStai (k : OpSlot) (s : State) : Host.Outcome State Fault Refusal :=
  .next ((((s.memWrite s.a s.d).popDSToD).setA (incr s.a)).advance k (.write s.a s.d))

end Sys2Proof.Machine
end

