-- ==== Sys2Proof/Machine/Move.lean ====
section
/-! DEFINITION. The move group (spec/41_move.md R150 to R153). Every right-hand side reads the state `s` before the opcode (R13). -/

namespace Sys2Proof.Machine

/-- `get` (R150): `PushDS(D); D <- A; A <- R`. -/
def execGet (k : OpSlot) (s : State) : Host.Outcome State Fault Refusal :=
  .next ((((s.pushDS s.d).setD s.a).setA s.r).advance k .none)

/-- `pop` (R151): `PushDS(D); D <- A; A <- R; R <- PopRS()`. -/
def execPop (k : OpSlot) (s : State) : Host.Outcome State Fault Refusal :=
  .next (((((s.pushDS s.d).setD s.a).setA s.r).popRSToR).advance k .none)

/-- `drop` (R152): `A <- D; D <- PopDS()`. -/
def execDrop (k : OpSlot) (s : State) : Host.Outcome State Fault Refusal :=
  .next (((s.setA s.d).popDSToD).advance k .none)

/-- `push` (R153): `PushRS(R); R <- A; A <- D; D <- PopDS()`. -/
def execPush (k : OpSlot) (s : State) : Host.Outcome State Fault Refusal :=
  .next (((((s.pushRS s.r).setR s.a).setA s.d).popDSToD).advance k .none)

end Sys2Proof.Machine
end

