-- ==== Sys2Proof/Machine/Tokens.lean ====
section
/-! DEFINITION. The execution tokens of List State (spec/44_list_state.md R210 to R214). The token in I is the address
of the routine it enters (R92). -/

namespace Sys2Proof.Machine

/-- `tok.exit` (R212): `FetchToken(R); R <- PopRS()`. -/
def execTokExit (s : State) : Host.Outcome State Fault Refusal := .next s.returnToList

/-- `tok.call` (R213): `PushRS(R); R <- P; FetchWord(I)`. -/
def execTokCall (a : Word) (s : State) : Host.Outcome State Fault Refusal := .next (s.link.fetchWord a)

/-- `tok.nest` (R214): `PushRS(R); R <- P; FetchToken(I)`. -/
def execTokNest (a : Word) (s : State) : Host.Outcome State Fault Refusal := .next (s.link.fetchToken a)

end Sys2Proof.Machine
end

