-- ==== Sys2Proof/Machine/Dispatch.lean ====
section
/-! DEFINITION. What each instruction does: one arm per constructor of Instr, one direct call of its meaning. -/

namespace Sys2Proof.Machine

/-- The effect of one instruction. -/
def exec (i : Instr) (s : State) : Host.Outcome State Fault Refusal :=
  match i with
  | .get k => Sys2Proof.Machine.execGet k s
  | .pop k => Sys2Proof.Machine.execPop k s
  | .drop k => Sys2Proof.Machine.execDrop k s
  | .push k => Sys2Proof.Machine.execPush k s
  | .lit k => Sys2Proof.Machine.execLit k s
  | .ldri k => Sys2Proof.Machine.execLdri k s
  | .lda k => Sys2Proof.Machine.execLda k s
  | .ldai k => Sys2Proof.Machine.execLdai k s
  | .str k => Sys2Proof.Machine.execStr k s
  | .stri k => Sys2Proof.Machine.execStri k s
  | .sta k => Sys2Proof.Machine.execSta k s
  | .stai k => Sys2Proof.Machine.execStai k s
  | .swap k => Sys2Proof.Machine.execSwap k s
  | .nop k => Sys2Proof.Machine.execNop k s
  | .eqz k => Sys2Proof.Machine.execEqz k s
  | .inv k => Sys2Proof.Machine.execInv k s
  | .add k => Sys2Proof.Machine.execAdd k s
  | .lsl k => Sys2Proof.Machine.execLsl k s
  | .asr k => Sys2Proof.Machine.execAsr k s
  | .lsr k => Sys2Proof.Machine.execLsr k s
  | .overOp k => Sys2Proof.Machine.execOver k s
  | .dup k => Sys2Proof.Machine.execDup k s
  | .zero k => Sys2Proof.Machine.execZero k s
  | .one k => Sys2Proof.Machine.execOne k s
  | .nip k => Sys2Proof.Machine.execNip k s
  | .or k => Sys2Proof.Machine.execOr k s
  | .xor k => Sys2Proof.Machine.execXor k s
  | .and k => Sys2Proof.Machine.execAnd k s
  | .jmp t => Sys2Proof.Machine.execJmp t s
  | .jmpd t => Sys2Proof.Machine.execJmpd t s
  | .jmpp t => Sys2Proof.Machine.execJmpp t s
  | .jmpz t => Sys2Proof.Machine.execJmpz t s
  | .jsr t => Sys2Proof.Machine.execJsr t s
  | .jsrn t => Sys2Proof.Machine.execJsrn t s
  | .jsrp t => Sys2Proof.Machine.execJsrp t s
  | .jsrz t => Sys2Proof.Machine.execJsrz t s
  | .into => Sys2Proof.Machine.execInto s
  | .exit => Sys2Proof.Machine.execExit s
  | .repd => Sys2Proof.Machine.execRepd s
  | .repp => Sys2Proof.Machine.execRepp s
  | .repz => Sys2Proof.Machine.execRepz s
  | .nxt => Sys2Proof.Machine.execNxt s
  | .ret => Sys2Proof.Machine.execRet s
  | .tokExit => Sys2Proof.Machine.execTokExit s
  | .tokCall a => Sys2Proof.Machine.execTokCall a s
  | .tokNest a => Sys2Proof.Machine.execTokNest a s

end Sys2Proof.Machine
end

