-- ==== Sys2Proof/Machine/Step.lean ====
section
/-! DEFINITION. One step of the CPU (R90): one opcode, one slot 3 action or one token, decoded from the word in I. -/

namespace Sys2Proof.Machine

/-- Where the word in I is read (R32, R33): as a token in List State, else at the current slot. -/
def State.place (s : State) : Place :=
  match s.execState with
  | .list => .list
  | .code => .code s.slot

/-- `Step()` (R90): the instruction that I holds at its place, executed. -/
def step (s : State) : Host.Outcome State Fault Refusal := exec (decode s.place s.i) s

/-- `s` with a table row's bits in I, at the slot they stand in, so that the next step runs that instruction. The SP2's
step executes from I, where the step before it fetched the word (R37, R90; log entry 5). -/
def State.withFetchWord (s : State) (nbits w : Nat) : State :=
  match wordOfBits nbits w with
  | some v => { s with i := v, execState := .code, slot := rowSlot v }
  | none => s

end Sys2Proof.Machine
end

