-- ==== Sys2Proof/Safety.lean ====
section
/-! DEFINITION. The terms statements are written in: the invariant of a run, the stacks as the spec draws them, what a
fetch leaves, what an instruction leaves alone, and the spec's tables of who uses which register, stack and bus access.
A run is safe when each of its states meets `State.Inv` and no step of it is refused; a fault does not exist (R230). -/

namespace Sys2Proof.Machine

/-! ## The invariant -/

/-- The sequencer stands where R90 and R91 let it stand: past a slot only when the opcodes before it in I are no jumps,
at slot 3 only when slot 2 is not `into` or `exit`; in List State `slot` is 0 (R16). -/
def State.slotReached (s : State) : Bool :=
  match s.execState, s.slot with
  | .list, k => k == .s0
  | .code, .s0 => true
  | .code, .s1 => !isControl (opBits s.i .s0)
  | .code, .s2 => !isControl (opBits s.i .s0) && !isControl (opBits s.i .s1)
  | .code, .s3 => !isControl (opBits s.i .s0) && !isControl (opBits s.i .s1) && opBits s.i .s2 != 0

/-- What holds of every state of a run: both stack indices name a cell (R7, R26), memory is canonical, and the
sequencer stands at a slot it can reach. -/
abbrev State.Inv (s : State) : Prop :=
  s.ds.wf = true ∧ s.rs.wf = true ∧ s.mem.wf = true ∧ s.slotReached = true

/-! ## The stacks as the spec draws them (R18, R30) -/

/-- The data stack, top first: A, D and the cells of DS newest first. -/
def State.dataStack (s : State) : List Word := s.a :: s.d :: s.ds.toList

/-- The return stack, top first: R and the cells of RS newest first. -/
def State.returnStack (s : State) : List Word := s.r :: s.rs.toList

/-- `s` and `t` are the same machine but for the hidden indices of the two stacks (R26: "only the behaviour ... is
observable, not the index"). -/
def State.sameButIndex (s t : State) : Prop :=
  s.dataStack = t.dataStack ∧ s.returnStack = t.returnStack ∧ s.p = t.p ∧ s.i = t.i ∧
    s.execState = t.execState ∧ s.slot = t.slot ∧ s.mem = t.mem ∧ s.devices = t.devices ∧ s.answers = t.answers ∧
    s.bus = t.bus

/-! ## What a step leaves -/

/-- Every word of plain memory reads in `t` as it does in `s`. -/
def State.sameWords (s t : State) : Prop := ∀ b : Word, t.mem.readWord b = s.mem.readWord b

/-- No access was made: every word of plain memory, and the devices, are as they were. -/
def State.sameMemory (s t : State) : Prop := s.sameWords t ∧ t.devices = s.devices

/-- A read or fetch at `addr` was made: plain memory is as it was, and the platform has answered once. -/
def State.readAt (s t : State) (addr : Word) : Prop := s.sameWords t ∧ t.devices = s.devices.afterRead addr

/-- `v` was written at `addr` (R52, R55): every other word of plain memory reads as before, and so does the one at
`addr` when it lies behind a device window; otherwise it reads `v`. -/
def State.storedAt (s t : State) (addr v : Word) : Prop :=
  t.devices = s.devices ∧ (∀ b, b ≠ addr → t.mem.readWord b = s.mem.readWord b) ∧
    t.mem.readWord addr = if s.devices.covers addr then s.mem.readWord addr else v

/-- What a non-control opcode in slot `k` does to the sequencer (R90): the slot advances; I, `state` and the
platform's answers stay. -/
def State.opcodeFrame (s t : State) (k : OpSlot) : Prop :=
  t.slot = nextSlot k ∧ t.i = s.i ∧ t.execState = s.execState ∧ t.answers = s.answers

/-- A, D, DS and every word of plain memory are as they were. -/
def State.sameData (s t : State) : Prop := t.a = s.a ∧ t.d = s.d ∧ t.ds = s.ds ∧ s.sameWords t

/-- `t` has just fetched the instruction word at `addr` (R16), from what `s` has behind the bus. That `addr + 1` wraps is
the spec's decision D3 (log entry 10). -/
def State.fetchedWord (s t : State) (addr : Word) : Prop :=
  t.i = s.memRead addr ∧ t.p = addr + 1 ∧ t.devices = s.devices.afterRead addr ∧ t.execState = .code ∧ t.slot = .s0 ∧
    t.answers = s.answers ∧ t.bus = .fetchWord addr

/-- The token the platform injects at the next token fetch, if it holds `hold` high there (R233). -/
def State.held (s : State) : Option Word :=
  match s.answers.next with
  | .inject token => some token
  | .memory => none

/-- The interrupt line is stuck: `hold` is high at every token fetch to come, with this token (R234). -/
def State.stuckHigh (s : State) (token : Word) : Prop := s.answers = ⟨[], .same (.inject token)⟩

/-- `t` has just made the token fetch at `addr` (R16, R233): the injected token and an unmoved P when `hold` was high,
else the token read at `addr` and P past it. One answer of the platform is used up. That an overridden fetch takes no
reply of a device is the model's choice (log entry 23), that `addr + 1` wraps the spec's decision D3 (log entry 10). -/
def State.fetchedToken (s t : State) (addr : Word) : Prop :=
  (match s.held with
    | some token => t.i = token ∧ t.p = addr ∧ t.devices = s.devices
    | none => t.i = s.memRead addr ∧ t.p = addr + 1 ∧ t.devices = s.devices.afterRead addr) ∧
    t.execState = .list ∧ t.slot = .s0 ∧ t.answers = s.answers.rest ∧ t.bus = .fetchToken addr

/-! ## Who uses what -/

/-- The kinds of bus access (R51, R53). -/
inductive AccessKind where
  | none | word | token | read | write
  deriving DecidableEq, Repr

/-- The kind of an access. -/
def BusAccess.kind : BusAccess → AccessKind
  | .none => .none
  | .fetchWord _ => .word
  | .fetchToken _ => .token
  | .read _ => .read
  | .write _ _ => .write

/-- The table of R51: which kind of access each instruction makes. That `lit` makes a data read is the spec's decision
D15 (log entry 17). -/
def accessKindOf : Instr → AccessKind
  | .lit _ | .ldri _ | .lda _ | .ldai _ => .read
  | .str _ | .stri _ | .sta _ | .stai _ => .write
  | .jmp _ | .jmpd _ | .jmpp _ | .jmpz _ | .jsr _ | .jsrn _ | .jsrp _ | .jsrz _ => .word
  | .nxt | .ret | .tokCall _ => .word
  | .into | .exit | .tokExit | .tokNest _ => .token
  | .get _ | .pop _ | .drop _ | .push _ => .none
  | .swap _ | .nop _ | .eqz _ | .inv _ | .add _ | .lsl _ | .asr _ | .lsr _ => .none
  | .overOp _ | .dup _ | .zero _ | .one _ | .nip _ | .or _ | .xor _ | .and _ => .none
  | .repd | .repp | .repz => .none

/-- The whole row of R51 for each instruction: its access, with the address and the word written. A jump's or call's
address is its target when taken and P when not (R110, R112). `lit` is a data read by the spec's decision D15 (log
entry 17). -/
def busAccessOf (i : Instr) (s : State) : BusAccess :=
  match i with
  | .lit _ => .read s.p
  | .ldri _ => .read s.r
  | .lda _ | .ldai _ => .read s.a
  | .str _ | .stri _ => .write s.r s.d
  | .sta _ | .stai _ => .write s.a s.d
  | .jmp t | .jsr t => .fetchWord (pageTarget t s.p)
  | .jmpd t | .jsrn t => .fetchWord (if s.r = 0 then s.p else pageTarget t s.p)
  | .jmpp t | .jsrp t => .fetchWord (if s.a.toNat < 32768 then pageTarget t s.p else s.p)
  | .jmpz t | .jsrz t => .fetchWord (if s.a = 0 then pageTarget t s.p else s.p)
  | .nxt => .fetchWord s.p
  | .ret => .fetchWord s.r
  | .into => .fetchToken s.p
  | .exit | .tokExit => .fetchToken s.r
  | .tokCall a => .fetchWord a
  | .tokNest a => .fetchToken a
  | .get _ | .pop _ | .drop _ | .push _ => .none
  | .swap _ | .nop _ | .eqz _ | .inv _ | .add _ | .lsl _ | .asr _ | .lsr _ => .none
  | .overOp _ | .dup _ | .zero _ | .one _ | .nip _ | .or _ | .xor _ | .and _ => .none
  | .repd | .repp | .repz => .none

/-- What the step with this access leaves of the devices: each read and fetch is answered once, a token fetch only when
the platform does not inject a token of its own there (log entry 23). -/
def State.devicesAfter (s : State) : BusAccess → Devices
  | .none | .write _ _ => s.devices
  | .read a | .fetchWord a => s.devices.afterRead a
  | .fetchToken a => if s.held = none then s.devices.afterRead a else s.devices

/-- What an instruction does to a stack memory (R31). -/
inductive StackUse where
  | untouched | pushes | pops
  deriving DecidableEq, Repr

/-- The DS rows of the table of R31. -/
def dsUse : Instr → StackUse
  | .get _ | .pop _ | .lit _ | .ldri _ | .lda _ | .ldai _ => .pushes
  | .overOp _ | .dup _ | .zero _ | .one _ => .pushes
  | .drop _ | .push _ | .str _ | .stri _ | .sta _ | .stai _ => .pops
  | .nip _ | .or _ | .xor _ | .and _ => .pops
  | .swap _ | .nop _ | .eqz _ | .inv _ | .add _ | .lsl _ | .asr _ | .lsr _ => .untouched
  | .jmp _ | .jmpd _ | .jmpp _ | .jmpz _ | .jsr _ | .jsrn _ | .jsrp _ | .jsrz _ => .untouched
  | .into | .exit | .repd | .repp | .repz | .nxt | .ret => .untouched
  | .tokExit | .tokCall _ | .tokNest _ => .untouched

/-- The RS rows of the table of R31, with the conditions of the opcodes that touch RS only sometimes. -/
def rsUse (i : Instr) (s : State) : StackUse :=
  match i with
  | .push _ | .jsr _ | .tokCall _ | .tokNest _ => .pushes
  | .jsrn _ => if s.r ≠ 0 then .pushes else .untouched
  | .jsrp _ => if s.a.toNat < 32768 then .pushes else .untouched
  | .jsrz _ => if s.a = 0 then .pushes else .untouched
  | .pop _ | .ret | .exit | .tokExit => .pops
  | .jmpd _ => if s.r = 0 then .pops else .untouched
  | .repd => if s.r = 0 then .pops else .untouched
  | .get _ | .drop _ | .lit _ | .ldri _ | .lda _ | .ldai _ => .untouched
  | .str _ | .stri _ | .sta _ | .stai _ => .untouched
  | .swap _ | .nop _ | .eqz _ | .inv _ | .add _ | .lsl _ | .asr _ | .lsr _ => .untouched
  | .overOp _ | .dup _ | .zero _ | .one _ | .nip _ | .or _ | .xor _ | .and _ => .untouched
  | .jmp _ | .jmpp _ | .jmpz _ | .into | .repp | .repz | .nxt => .untouched

/-- The instructions that write A (R21). -/
def writesA : Instr → Bool
  | .get _ | .pop _ | .drop _ | .push _ | .ldai _ | .stai _ => true
  | .swap _ | .eqz _ | .inv _ | .add _ | .lsl _ | .asr _ | .lsr _ => true
  | .overOp _ | .zero _ | .one _ | .or _ | .xor _ | .and _ => true
  | .nop _ | .dup _ | .nip _ | .lit _ | .ldri _ | .lda _ => false
  | .str _ | .stri _ | .sta _ => false
  | .jmp _ | .jmpd _ | .jmpp _ | .jmpz _ | .jsr _ | .jsrn _ | .jsrp _ | .jsrz _ => false
  | .into | .exit | .repd | .repp | .repz | .nxt | .ret => false
  | .tokExit | .tokCall _ | .tokNest _ => false

/-- The instructions that write D: every move, load and store, and the ALU group but `nop`, `eqz` and `inv` (R22, R31,
R197). -/
def writesD : Instr → Bool
  | .get _ | .pop _ | .drop _ | .push _ => true
  | .lit _ | .ldri _ | .lda _ | .ldai _ | .str _ | .stri _ | .sta _ | .stai _ => true
  | .swap _ | .add _ | .lsl _ | .asr _ | .lsr _ => true
  | .overOp _ | .dup _ | .zero _ | .one _ | .nip _ | .or _ | .xor _ | .and _ => true
  | .nop _ | .eqz _ | .inv _ => false
  | .jmp _ | .jmpd _ | .jmpp _ | .jmpz _ | .jsr _ | .jsrn _ | .jsrp _ | .jsrz _ => false
  | .into | .exit | .repd | .repp | .repz | .nxt | .ret => false
  | .tokExit | .tokCall _ | .tokNest _ => false

/-- The instructions that write R (R24). -/
def writesR : Instr → Bool
  | .pop _ | .push _ | .ldri _ | .stri _ => true
  | .jmpd _ | .jsr _ | .jsrn _ | .jsrp _ | .jsrz _ => true
  | .exit | .repd | .ret | .tokExit | .tokCall _ | .tokNest _ => true
  | .get _ | .drop _ | .lit _ | .lda _ | .ldai _ | .str _ | .sta _ | .stai _ => false
  | .swap _ | .nop _ | .eqz _ | .inv _ | .add _ | .lsl _ | .asr _ | .lsr _ => false
  | .overOp _ | .dup _ | .zero _ | .one _ | .nip _ | .or _ | .xor _ | .and _ => false
  | .jmp _ | .jmpp _ | .jmpz _ | .into | .repp | .repz | .nxt => false

/-- P is written by a fetch and by `lit`, and by nothing else (R35). -/
def writesP (i : Instr) : Bool :=
  match i with
  | .lit _ => true
  | j => accessKindOf j == .word || accessKindOf j == .token

/-- The 28 opcodes that mean the same in each of the three slots (R90, R95). -/
def slotFreeOpcodes : List (OpSlot → Instr) :=
  [.get, .pop, .drop, .push, .lit, .ldri, .lda, .ldai, .str, .stri, .sta, .stai, .swap, .nop, .eqz, .inv, .add, .lsl,
    .asr, .lsr, .overOp, .dup, .zero, .one, .nip, .or, .xor, .and]

end Sys2Proof.Machine
end

