-- ==== Sys2Proof/Certificates/Slice0/Obligations.lean ====
section
/-! DEFINITION. The statements for the provers. Where a statement is about a stack it speaks of the list view of R30,
newest first: `toList.dropLast` is what a push keeps (the oldest cell is lost), `toList ++ toList.take 1` is a popped
word followed by the rotated cells. -/

open Sys2Proof Sys2Proof.Machine

/-! ## Encoding -/

/-- Decode and encode agree: every well-formed instruction, with every operand, is read back at its place (R80, R95,
R98). -/
def Obligations.DecodeEncodeRoundTrip : Prop :=
  ∀ i : Instr, i.wf = true → decode i.place (encode i) = i

/-- No bit of an instruction word is dropped: the instructions a word holds encode to that word (R80 to R84). -/
def Obligations.EncodeWordOfDecodeWord : Prop :=
  ∀ w : Word, encodeWord (decodeWord w) = w

/-- Every word is legal at every place, and decodes to an instruction of that place (R95). -/
def Obligations.EveryWordDecodesAtItsPlace : Prop :=
  ∀ (pl : Place) (w : Word), (decode pl w).wf = true ∧ (decode pl w).place = pl

/-- Words written out from the encoding tables decode to the instructions they stand for: the first of each family in
the table of spec/95_test_vectors.md 3.1. -/
def Obligations.SpecWordsDecode : Prop :=
  decodeWord 0x129c = [.get .s0, .add .s1, .nip .s2, .nxt] ∧
  decodeWord 0xa207 = [.lit .s0, .swap .s1, .push .s2, .ret] ∧
  decodeWord 0x65e1 = [.dup .s0, .stai .s1, .repd, .nxt] ∧
  decodeWord 0x0403 = [.jmpd (.slot0 3)] ∧
  decodeWord 0xc410 = [.nop .s0, .jsr (.slot1 0x10)] ∧
  decodeWord 0xb8c0 = [.sta .s0, .drop .s1, .exit] ∧
  decode .list 0x0000 = .tokExit ∧ decode .list 0x8010 = .tokCall 0x8010 ∧ decode .list 0x4631 = .tokNest 0x4631

/-- Every token falls in exactly one class: zero, non-zero even, odd; the whole token is the address (R92, R211). -/
def Obligations.TokenClassesAreExclusive : Prop :=
  ∀ w : Word,
    (decode .list w = .tokExit ↔ w = 0) ∧
    (∀ a, decode .list w = .tokCall a ↔ a = w ∧ w ≠ 0 ∧ w.toNat % 2 = 0) ∧
    (∀ a, decode .list w = .tokNest a ↔ a = w ∧ w.toNat % 2 = 1)

/-! ## The step -/

/-- A step runs the instruction that I holds at the place the sequencer stands at, and does nothing around it (R90;
that one opcode is one step is the spec's own decision D14, log entry 16). -/
def Obligations.StepRunsDecodedInstruction : Prop :=
  ∀ (s : State) (i : Instr), decode s.place s.i = i → i.wf = true ∧ step s = exec i s

/-- No instruction faults, traps or is refused: from every state the step answers a next state (R230, R95). -/
def Obligations.EveryStepAnswersNext : Prop :=
  ∀ s : State, ∃ t, step s = .next t

/-- Every step keeps the invariant: stack indices inside their stacks, memory canonical, the sequencer at a slot it
can reach (R26, R28, R90, R91; the index is the spec's own decision D2, log entry 9, one opcode a step its decision
D14, log entry 16, the canonical form the model's, log entry 4). -/
def Obligations.StepKeepsInvariant : Prop :=
  ∀ s t : State, s.Inv → step s = .next t → t.Inv

/-- The reset state meets the invariant (the stack depths, indices and cells and the empty memory it starts with are the
model's choices, log entries 1 to 4). -/
def Obligations.ResetMeetsInvariant : Prop := State.reset.Inv

/-- Nothing a program can do shows a stack index (R26, R28): from two machines that differ at most in the hidden
indices, one step leads to two machines that differ at most in them. That there is an index, and which way it moves,
is the spec's own decision D2 (log entry 9). -/
def Obligations.StackIndexUnobservable : Prop :=
  ∀ s t : State, s.ds.wf = true → s.rs.wf = true → t.ds.wf = true → t.rs.wf = true → s.sameButIndex t →
    ∃ s' t', step s = .next s' ∧ step t = .next t' ∧ s'.sameButIndex t'

/-- No step changes the depth of a stack memory (R7, R23, R25). -/
def Obligations.StepKeepsStackDepths : Prop :=
  ∀ s t : State, step s = .next t → t.ds.depth = s.ds.depth ∧ t.rs.depth = s.rs.depth

/-- Slot 3 is reached in exactly two ways: after a non-control opcode in slot 2 of a word whose slots 0 to 2 hold none,
and after a repeat in slot 2 whose condition failed; never in formats F0 and F1, nor after `into` or `exit` (R91). -/
def Obligations.SlotThreeReachedInTwoWays : Prop :=
  ∀ s t : State, s.slotReached = true → step s = .next t →
    ((t.execState = .code ∧ t.slot = .s3) ↔
      s.execState = .code ∧ s.slot = .s2 ∧ isControl (opBits s.i .s0) = false ∧ isControl (opBits s.i .s1) = false ∧
        (4 ≤ (opBits s.i .s2).toNat ∨
          ((opBits s.i .s2).toNat = 1 ∧ s.r = 0) ∨
          ((opBits s.i .s2).toNat = 2 ∧ 32768 ≤ s.a.toNat) ∨
          ((opBits s.i .s2).toNat = 3 ∧ s.a ≠ 0)))

/-- A non-control opcode does the same thing in whichever slot it stands (R90): moved to another slot it leaves the
same state but for the slot that comes next. -/
def Obligations.OpcodeMeansTheSameInEverySlot : Prop :=
  ∀ f ∈ slotFreeOpcodes, ∀ (k k' : OpSlot) (s : State),
    ∃ t, exec (f k) s = .next t ∧ t.slot = nextSlot k ∧ exec (f k') s = .next (t.setSlot (nextSlot k'))

/-- The word in I stays while its slots execute: only a fetch writes I, `state` and the platform's answers (R37,
R236). -/
def Obligations.InstructionKeptUntilNextFetch : Prop :=
  ∀ s t : State, step s = .next t → t.bus.kind ≠ .word → t.bus.kind ≠ .token →
    t.i = s.i ∧ t.execState = s.execState ∧ t.answers = s.answers

/-! ## Who uses what -/

/-- Each instruction makes the access its row of R51 names, of that kind, at that address and with that word, and no
other. That `lit` makes a data read is the spec's own decision D15 (log entry 17). -/
def Obligations.BusAccessFollowsTable : Prop :=
  ∀ (i : Instr) (s t : State), exec i s = .next t → t.bus = busAccessOf i s ∧ t.bus.kind = accessKindOf i

/-- Plain memory changes only where the step wrote on the bus, and there, unless a device window covers the address,
it holds the word written (R51, R52, R55; what a device does with a word written to it is the platform's, log entry
7). -/
def Obligations.MemoryChangesOnlyByBusWrite : Prop :=
  ∀ s t : State, step s = .next t →
    (∀ b, t.mem.readWord b ≠ s.mem.readWord b → s.devices.covers b = false ∧ ∃ v, t.bus = .write b v) ∧
    (s.mem.wf = true → ∀ b v, t.bus = .write b v → s.devices.covers b = false → t.mem.readWord b = v)

/-- The platform answers each read and each fetch of a step once, and nothing else reaches it (R51, R52, R54, R56): the
word a data read returns goes to D and the word a fetch returns to I, whether plain memory or a device returns it. A
token fetch at which a token is injected takes no answer of a device (the model's choice, log entry 23). -/
def Obligations.EachReadIsAnsweredOnce : Prop :=
  ∀ (i : Instr) (s t : State), exec i s = .next t →
    t.devices = s.devicesAfter t.bus ∧
    (∀ a, t.bus = .read a → t.d = s.memRead a) ∧
    (∀ a, t.bus = .fetchWord a → t.i = s.memRead a) ∧
    (∀ a, t.bus = .fetchToken a → s.held = none → t.i = s.memRead a)

/-- Which word an address returns (R52, R54): behind a device window the platform's next reply, and the next read there
takes the one after it; elsewhere, in particular everywhere when there is no window, what plain memory holds, and no
reply is used up. The windows are the model's form of the parameter `Platform` (log entry 7). -/
def Obligations.DeviceRepliesComeInOrder : Prop :=
  ∀ (s : State) (a : Word),
    (s.devices.covers a = false → s.memRead a = s.mem.readWord a ∧ s.answered a = s) ∧
    (s.devices.windows = [] → s.devices.covers a = false) ∧
    (s.devices.covers a = true → ∀ v w rest, s.devices.replies = v :: w :: rest →
      s.memRead a = v ∧ (s.answered a).memRead a = w ∧
      ∀ b, s.devices.covers b = false → (s.answered a).memRead b = s.memRead b)

/-- DS is pushed with D by the pushers of R31, popped into D by its poppers, and touched by nothing else. -/
def Obligations.DataStackTouchedOnlyByTable : Prop :=
  ∀ (i : Instr) (s t : State), exec i s = .next t →
    match dsUse i with
    | .untouched => t.ds = s.ds
    | .pushes => t.ds = s.ds.push s.d
    | .pops => t.ds = s.ds.popped ∧ t.d = s.ds.top

/-- RS is pushed with R by the pushers of R31 (a conditional call only when taken), popped into R by its poppers
(`jmpd` and `repd` only when R is zero), and touched by nothing else. -/
def Obligations.ReturnStackTouchedOnlyByTable : Prop :=
  ∀ (i : Instr) (s t : State), exec i s = .next t →
    match rsUse i s with
    | .untouched => t.rs = s.rs
    | .pushes => t.rs = s.rs.push s.r
    | .pops => t.rs = s.rs.popped ∧ t.r = s.rs.top

/-- A, D, R and P are written only by the instructions the spec lists for each (R21, R22, R24, R35). -/
def Obligations.RegistersWrittenOnlyByTheirWriters : Prop :=
  ∀ (i : Instr) (s t : State), exec i s = .next t →
    (writesA i = false → t.a = s.a) ∧ (writesD i = false → t.d = s.d) ∧
    (writesR i = false → t.r = s.r) ∧ (writesP i = false → t.p = s.p)

/-! ## The stack memories -/

/-- The array with an index does what the list view says (R30): a push puts the word in front and loses the oldest, a
pop returns the newest and rotates it to the end. That the stacks are circular is the spec's own decision D2 (log
entry 9). -/
def Obligations.StackIsACircularList : Prop :=
  ∀ (st : Stack) (v : Word), st.wf = true →
    (st.push v).toList = v :: st.toList.dropLast ∧
    st.toList = st.top :: st.toList.tail ∧
    st.popped.toList = st.toList.tail ++ [st.top]

/-- `k` pushes followed by `k` pops return the pushed words in reverse order for every `k` up to the depth (R30; the
circular reading is the spec's own decision D2, log entry 9). -/
def Obligations.PushesThenPopsReverse : Prop :=
  ∀ (st : Stack) (vs : List Word), st.wf = true → vs.length ≤ st.depth →
    (Stack.popMany vs.length (st.pushAll vs)).1 = vs.reverse

/-- Past the depth only the last `N` pushed words survive (R30; the circular reading is the spec's own decision D2,
log entry 9). -/
def Obligations.OnlyLastPushesSurvive : Prop :=
  ∀ (st : Stack) (vs : List Word), st.wf = true → st.depth ≤ vs.length →
    (st.pushAll vs).toList = vs.reverse.take st.depth

/-- Pops cycle: after `N` pops the stack is as it was, and the words returned are its cells, newest first (R27, by the
spec's own decision D2, log entry 9). -/
def Obligations.PopsCycleThroughTheCells : Prop :=
  ∀ st : Stack, st.wf = true → Stack.popMany st.depth st = (st.toList, st)

/-! ## Move group -/

/-- `get`, `pop`, `drop` and `push`: the two stacks after each, and everything else as it was (R150 to R153). That a
popped cell goes round to the end is the spec's own decision D2 (log entry 9). -/
def Obligations.MoveGroupStackEffects : Prop :=
  ∀ (s : State) (k : OpSlot), s.ds.wf = true → s.rs.wf = true →
    (∃ t, exec (.get k) s = .next t ∧ t.dataStack = s.r :: s.a :: s.d :: s.ds.toList.dropLast ∧
      t.r = s.r ∧ t.rs = s.rs ∧ t.p = s.p ∧ s.opcodeFrame t k ∧ s.sameMemory t ∧ t.bus = .none) ∧
    (∃ t, exec (.pop k) s = .next t ∧ t.dataStack = s.r :: s.a :: s.d :: s.ds.toList.dropLast ∧
      t.returnStack = s.rs.toList ++ s.rs.toList.take 1 ∧
      t.p = s.p ∧ s.opcodeFrame t k ∧ s.sameMemory t ∧ t.bus = .none) ∧
    (∃ t, exec (.drop k) s = .next t ∧ t.dataStack = s.d :: (s.ds.toList ++ s.ds.toList.take 1) ∧
      t.r = s.r ∧ t.rs = s.rs ∧ t.p = s.p ∧ s.opcodeFrame t k ∧ s.sameMemory t ∧ t.bus = .none) ∧
    (∃ t, exec (.push k) s = .next t ∧ t.dataStack = s.d :: (s.ds.toList ++ s.ds.toList.take 1) ∧
      t.returnStack = s.a :: s.r :: s.rs.toList.dropLast ∧
      t.p = s.p ∧ s.opcodeFrame t k ∧ s.sameMemory t ∧ t.bus = .none)

/-- `push` then `pop` restores A, D, R and the data stack (R151). That of RS only the oldest cell is lost, and that
the word `push` saved stands in its place, is the circular reading of the stacks, the spec's own decision D2 (log
entry 9). -/
def Obligations.PushThenPopRestores : Prop :=
  ∀ (s : State) (k k' : OpSlot), s.ds.wf = true → s.rs.wf = true →
    ∃ t u, exec (.push k) s = .next t ∧ exec (.pop k') t = .next u ∧
      u.dataStack = s.dataStack ∧ u.r = s.r ∧ u.rs.toList = s.rs.toList.dropLast ++ [s.r]

/-! ## Memory group -/

/-- The four loads: the word read at P, R or A arrives in D under A, the old D goes to DS, and the address register is
incremented where the opcode says so (R158 to R163). That an increment wraps is the spec's own decision D3 (log entry
10), that `lit` shows as a data read its decision D15 (log entry 17). -/
def Obligations.LoadsPutTheWordUnderA : Prop :=
  ∀ (s : State) (k : OpSlot), s.ds.wf = true →
    (∃ t, exec (.lit k) s = .next t ∧ t.dataStack = s.a :: s.memRead s.p :: s.d :: s.ds.toList.dropLast ∧
      t.p = s.p + 1 ∧ t.r = s.r ∧ t.rs = s.rs ∧ s.opcodeFrame t k ∧ s.readAt t s.p ∧ t.bus = .read s.p) ∧
    (∃ t, exec (.ldri k) s = .next t ∧ t.dataStack = s.a :: s.memRead s.r :: s.d :: s.ds.toList.dropLast ∧
      t.p = s.p ∧ t.r = s.r + 1 ∧ t.rs = s.rs ∧ s.opcodeFrame t k ∧ s.readAt t s.r ∧ t.bus = .read s.r) ∧
    (∃ t, exec (.lda k) s = .next t ∧ t.dataStack = s.a :: s.memRead s.a :: s.d :: s.ds.toList.dropLast ∧
      t.p = s.p ∧ t.r = s.r ∧ t.rs = s.rs ∧ s.opcodeFrame t k ∧ s.readAt t s.a ∧ t.bus = .read s.a) ∧
    (∃ t, exec (.ldai k) s = .next t ∧ t.dataStack = (s.a + 1) :: s.memRead s.a :: s.d :: s.ds.toList.dropLast ∧
      t.p = s.p ∧ t.r = s.r ∧ t.rs = s.rs ∧ s.opcodeFrame t k ∧ s.readAt t s.a ∧ t.bus = .read s.a)

/-- The four stores: D is written at R or A and refilled from DS, the address register is incremented where the opcode
says so, and every word of plain memory at another address reads as before, as does the word at that address when a
device window covers it (R52, R158, R159, R164 to R167; what is behind the bus is a parameter, the spec's decision D8,
log entry 7). That an increment wraps is the spec's own decision D3 (log entry 10), that a popped cell goes round to
the end its decision D2 (log entry 9). -/
def Obligations.StoresWriteDAndNothingElse : Prop :=
  ∀ (s : State) (k : OpSlot), s.ds.wf = true → s.mem.wf = true →
    (∃ t, exec (.str k) s = .next t ∧ t.dataStack = s.a :: (s.ds.toList ++ s.ds.toList.take 1) ∧
      t.p = s.p ∧ t.r = s.r ∧ t.rs = s.rs ∧ s.opcodeFrame t k ∧ t.bus = .write s.r s.d ∧
      s.storedAt t s.r s.d) ∧
    (∃ t, exec (.stri k) s = .next t ∧ t.dataStack = s.a :: (s.ds.toList ++ s.ds.toList.take 1) ∧
      t.p = s.p ∧ t.r = s.r + 1 ∧ t.rs = s.rs ∧ s.opcodeFrame t k ∧ t.bus = .write s.r s.d ∧
      s.storedAt t s.r s.d) ∧
    (∃ t, exec (.sta k) s = .next t ∧ t.dataStack = s.a :: (s.ds.toList ++ s.ds.toList.take 1) ∧
      t.p = s.p ∧ t.r = s.r ∧ t.rs = s.rs ∧ s.opcodeFrame t k ∧ t.bus = .write s.a s.d ∧
      s.storedAt t s.a s.d) ∧
    (∃ t, exec (.stai k) s = .next t ∧ t.dataStack = (s.a + 1) :: (s.ds.toList ++ s.ds.toList.take 1) ∧
      t.p = s.p ∧ t.r = s.r ∧ t.rs = s.rs ∧ s.opcodeFrame t k ∧ t.bus = .write s.a s.d ∧
      s.storedAt t s.a s.d)

/-- Whatever a store writes to plain memory, every next load, `lit`, instruction word fetch and token fetch at that
address returns it, whichever instruction makes the access, and the word in I is not affected (R66, R168; the spec's
own decision D9, log entry 14). An address behind a device window is not plain memory, and an injected token replaces
the fetched one (R233). -/
def Obligations.StoredWordIsReadAndFetched : Prop :=
  ∀ (i : Instr) (s t : State) (b v : Word), s.mem.wf = true → exec i s = .next t → t.bus = .write b v →
    t.i = s.i ∧
    (s.devices.covers b = false →
      t.memRead b = v ∧
      ∀ j, ∃ u, exec j t = .next u ∧ u.bus = busAccessOf j t ∧
        (u.bus = .read b → u.d = v) ∧
        (u.bus = .fetchWord b → u.i = v) ∧
        (u.bus = .fetchToken b → t.held = none → u.i = v))

/-- Two memories in canonical form that read alike at every word address are equal (the model's own form, log entry 4;
R58: nothing below the word can be observed). -/
def Obligations.CanonicalMemoriesReadAlikeAreEqual : Prop :=
  ∀ m m' : Memory, m.wf = true → m'.wf = true → (∀ a, m.readWord a = m'.readWord a) → m = m'

/-! ## ALU group -/

/-- `swap`, `nop`, `eqz` and `inv`: their encodings in each slot, what they do to A and D, and everything else as it
was; `swap swap` is the identity on A and D (R181 to R184). -/
def Obligations.SwapNopEqzInv : Prop :=
  ∀ (s : State) (k : OpSlot),
    (∀ w, opBits w k = 0x10 → decode (.code k.toSlot) w = .swap k) ∧
    (∀ w, opBits w k = 0x11 → decode (.code k.toSlot) w = .nop k) ∧
    (∀ w, opBits w k = 0x12 → decode (.code k.toSlot) w = .eqz k) ∧
    (∀ w, opBits w k = 0x13 → decode (.code k.toSlot) w = .inv k) ∧
    (∃ t, exec (.swap k) s = .next t ∧ t.a = s.d ∧ t.d = s.a ∧ t.ds = s.ds ∧ t.r = s.r ∧ t.rs = s.rs ∧ t.p = s.p ∧
      s.opcodeFrame t k ∧ s.sameMemory t ∧ t.bus = .none ∧
      ∀ k', ∃ u, exec (.swap k') t = .next u ∧ u.a = s.a ∧ u.d = s.d) ∧
    (∃ t, exec (.nop k) s = .next t ∧ t.a = s.a ∧ t.d = s.d ∧ t.ds = s.ds ∧ t.r = s.r ∧ t.rs = s.rs ∧ t.p = s.p ∧
      s.opcodeFrame t k ∧ s.sameMemory t ∧ t.bus = .none) ∧
    (∃ t, exec (.eqz k) s = .next t ∧ t.a.toNat = (if s.a.toNat = 0 then 65535 else 0) ∧ t.d = s.d ∧ t.ds = s.ds ∧
      t.r = s.r ∧ t.rs = s.rs ∧ t.p = s.p ∧ s.opcodeFrame t k ∧ s.sameMemory t ∧ t.bus = .none) ∧
    (∃ t, exec (.inv k) s = .next t ∧ t.a.toNat + s.a.toNat = 65535 ∧
      (∀ j < 16, t.a.getLsbD j = !s.a.getLsbD j) ∧ t.d = s.d ∧ t.ds = s.ds ∧
      t.r = s.r ∧ t.rs = s.rs ∧ t.p = s.p ∧ s.opcodeFrame t k ∧ s.sameMemory t ∧ t.bus = .none)

/-- `add`: the pair D.A becomes the 32-bit unsigned sum of A and D, so D is the carry, 0 or 1, and DS is not popped
(R185; that D takes the carry is the spec's own decision D4, log entry 11). -/
def Obligations.AddLeavesSumAndCarry : Prop :=
  ∀ (s : State) (k : OpSlot),
    ∃ t, exec (.add k) s = .next t ∧ t.d.toNat * 65536 + t.a.toNat = s.a.toNat + s.d.toNat ∧ t.d.toNat ≤ 1 ∧
      t.ds = s.ds ∧ t.r = s.r ∧ t.rs = s.rs ∧ t.p = s.p ∧ s.opcodeFrame t k ∧ s.sameMemory t ∧ t.bus = .none

/-- `lsl`, `asr` and `lsr` shift the 32-bit pair D.A by one: left with a zero, right replicating bit 15 of D, right with
a zero; with their encodings in each slot, and everything else as it was (R186 to R188). -/
def Obligations.ShiftsMoveThePair : Prop :=
  ∀ (s : State) (k : OpSlot),
    (∀ w, opBits w k = 0x15 → decode (.code k.toSlot) w = .lsl k) ∧
    (∀ w, opBits w k = 0x16 → decode (.code k.toSlot) w = .asr k) ∧
    (∀ w, opBits w k = 0x17 → decode (.code k.toSlot) w = .lsr k) ∧
    (∃ t, exec (.lsl k) s = .next t ∧ t.d ++ t.a = ((s.d ++ s.a) <<< 1 : BitVec 32) ∧ t.ds = s.ds ∧
      t.r = s.r ∧ t.rs = s.rs ∧ t.p = s.p ∧ s.opcodeFrame t k ∧ s.sameMemory t ∧ t.bus = .none) ∧
    (∃ t, exec (.asr k) s = .next t ∧ t.d ++ t.a = BitVec.sshiftRight (s.d ++ s.a : BitVec 32) 1 ∧ t.ds = s.ds ∧
      t.r = s.r ∧ t.rs = s.rs ∧ t.p = s.p ∧ s.opcodeFrame t k ∧ s.sameMemory t ∧ t.bus = .none) ∧
    (∃ t, exec (.lsr k) s = .next t ∧ t.d ++ t.a = ((s.d ++ s.a) >>> 1 : BitVec 32) ∧ t.ds = s.ds ∧
      t.r = s.r ∧ t.rs = s.rs ∧ t.p = s.p ∧ s.opcodeFrame t k ∧ s.sameMemory t ∧ t.bus = .none)

/-- `over`, `dup`, `zero` and `one` push the old D to DS and leave the data stack one deeper (R189 to R192). -/
def Obligations.AluPushersGrowTheStack : Prop :=
  ∀ (s : State) (k : OpSlot), s.ds.wf = true →
    (∃ t, exec (.overOp k) s = .next t ∧ t.dataStack = s.d :: s.a :: s.d :: s.ds.toList.dropLast ∧
      t.r = s.r ∧ t.rs = s.rs ∧ t.p = s.p ∧ s.opcodeFrame t k ∧ s.sameMemory t ∧ t.bus = .none) ∧
    (∃ t, exec (.dup k) s = .next t ∧ t.dataStack = s.a :: s.a :: s.d :: s.ds.toList.dropLast ∧
      t.r = s.r ∧ t.rs = s.rs ∧ t.p = s.p ∧ s.opcodeFrame t k ∧ s.sameMemory t ∧ t.bus = .none) ∧
    (∃ t, exec (.zero k) s = .next t ∧ t.dataStack = 0 :: s.a :: s.d :: s.ds.toList.dropLast ∧
      t.r = s.r ∧ t.rs = s.rs ∧ t.p = s.p ∧ s.opcodeFrame t k ∧ s.sameMemory t ∧ t.bus = .none) ∧
    (∃ t, exec (.one k) s = .next t ∧ t.dataStack = 1 :: s.a :: s.d :: s.ds.toList.dropLast ∧
      t.r = s.r ∧ t.rs = s.rs ∧ t.p = s.p ∧ s.opcodeFrame t k ∧ s.sameMemory t ∧ t.bus = .none)

/-- `nip`, `or`, `xor` and `and` refill D from DS; the last three put the bitwise result of the old A and D in A (R193
to R196). That a popped cell goes round to the end is the spec's own decision D2 (log entry 9). -/
def Obligations.AluPoppersRefillD : Prop :=
  ∀ (s : State) (k : OpSlot), s.ds.wf = true →
    (∃ t, exec (.nip k) s = .next t ∧ t.dataStack = s.a :: (s.ds.toList ++ s.ds.toList.take 1) ∧
      t.r = s.r ∧ t.rs = s.rs ∧ t.p = s.p ∧ s.opcodeFrame t k ∧ s.sameMemory t ∧ t.bus = .none) ∧
    (∃ t, exec (.or k) s = .next t ∧ (∀ j < 16, t.a.getLsbD j = (s.a.getLsbD j || s.d.getLsbD j)) ∧
      t.d :: t.ds.toList = s.ds.toList ++ s.ds.toList.take 1 ∧
      t.r = s.r ∧ t.rs = s.rs ∧ t.p = s.p ∧ s.opcodeFrame t k ∧ s.sameMemory t ∧ t.bus = .none) ∧
    (∃ t, exec (.xor k) s = .next t ∧ (∀ j < 16, t.a.getLsbD j = (s.a.getLsbD j != s.d.getLsbD j)) ∧
      t.d :: t.ds.toList = s.ds.toList ++ s.ds.toList.take 1 ∧
      t.r = s.r ∧ t.rs = s.rs ∧ t.p = s.p ∧ s.opcodeFrame t k ∧ s.sameMemory t ∧ t.bus = .none) ∧
    (∃ t, exec (.and k) s = .next t ∧ (∀ j < 16, t.a.getLsbD j = (s.a.getLsbD j && s.d.getLsbD j)) ∧
      t.d :: t.ds.toList = s.ds.toList ++ s.ds.toList.take 1 ∧
      t.r = s.r ∧ t.rs = s.rs ∧ t.p = s.p ∧ s.opcodeFrame t k ∧ s.sameMemory t ∧ t.bus = .none)

/-! ## Control group, slots 0 and 1 -/

/-- A jump target shares its page with P: the low 10 (slot 0) or 5 (slot 1) bits of P are replaced, the rest kept
(R85, R111). -/
def Obligations.TargetReplacesLowBitsOfP : Prop :=
  ∀ p : Word,
    (∀ a, (pageTarget (.slot0 a) p).toNat = p.toNat / 1024 * 1024 + a.toNat) ∧
    (∀ a, (pageTarget (.slot1 a) p).toNat = p.toNat / 32 * 32 + a.toNat)

/-- `jmp`, `jmpp` and `jmpz`: the word fetched and P after it, with A, D, R and both stacks unchanged (R114, R116,
R117). That the P after a fetch wraps is the spec's own decision D3 (log entry 10). -/
def Obligations.JumpsFetchAtTheirTarget : Prop :=
  ∀ (s : State) (t : PageAddr),
    (∃ u, exec (.jmp t) s = .next u ∧ s.fetchedWord u (pageTarget t s.p) ∧ s.sameData u ∧ u.r = s.r ∧ u.rs = s.rs) ∧
    (∃ u, exec (.jmpp t) s = .next u ∧
      s.fetchedWord u (if s.a.toNat < 32768 then pageTarget t s.p else s.p) ∧
      s.sameData u ∧ u.r = s.r ∧ u.rs = s.rs) ∧
    (∃ u, exec (.jmpz t) s = .next u ∧
      s.fetchedWord u (if s.a.toNat = 0 then pageTarget t s.p else s.p) ∧
      s.sameData u ∧ u.r = s.r ∧ u.rs = s.rs)

/-- `jmpd`: while R is non-zero it is decremented and the jump taken, R never going below zero and RS untouched; at
zero the next word at P is fetched and R is popped from RS (R115). That a popped cell goes round to the end is the
spec's own decision D2 (log entry 9). That the P after a fetch wraps is its decision D3 (log entry 10). -/
def Obligations.JmpdCountsDownThenPops : Prop :=
  ∀ (s : State) (t : PageAddr), s.rs.wf = true →
    ∃ u, exec (.jmpd t) s = .next u ∧ s.sameData u ∧
      (s.r.toNat ≠ 0 → u.r.toNat + 1 = s.r.toNat ∧ u.rs = s.rs ∧ s.fetchedWord u (pageTarget t s.p)) ∧
      (s.r.toNat = 0 → u.returnStack = s.rs.toList ++ s.rs.toList.take 1 ∧ s.fetchedWord u s.p)

/-- `jsr`, `jsrn`, `jsrp` and `jsrz`: taken, the old R goes to RS, R is the return address and the target is fetched;
not taken, the next word at P is fetched and R and RS stay (R118 to R121). That the P after a fetch wraps is the
spec's own decision D3 (log entry 10). -/
def Obligations.CallsLinkAndFetch : Prop :=
  ∀ (s : State) (t : PageAddr), s.rs.wf = true →
    (∃ u, exec (.jsr t) s = .next u ∧ s.sameData u ∧
      u.returnStack = s.p :: s.r :: s.rs.toList.dropLast ∧ s.fetchedWord u (pageTarget t s.p)) ∧
    (∃ u, exec (.jsrn t) s = .next u ∧ s.sameData u ∧
      if s.r.toNat ≠ 0 then
        u.returnStack = s.p :: s.r :: s.rs.toList.dropLast ∧ s.fetchedWord u (pageTarget t s.p)
      else u.r = s.r ∧ u.rs = s.rs ∧ s.fetchedWord u s.p) ∧
    (∃ u, exec (.jsrp t) s = .next u ∧ s.sameData u ∧
      if s.a.toNat < 32768 then
        u.returnStack = s.p :: s.r :: s.rs.toList.dropLast ∧ s.fetchedWord u (pageTarget t s.p)
      else u.r = s.r ∧ u.rs = s.rs ∧ s.fetchedWord u s.p) ∧
    (∃ u, exec (.jsrz t) s = .next u ∧ s.sameData u ∧
      if s.a.toNat = 0 then
        u.returnStack = s.p :: s.r :: s.rs.toList.dropLast ∧ s.fetchedWord u (pageTarget t s.p)
      else u.r = s.r ∧ u.rs = s.rs ∧ s.fetchedWord u s.p)

/-- Not taken: a conditional jump or call whose condition is false does what `nxt` does, whatever its page address and
bit 15: it fetches the next word at P and nothing else changes, except that a not-taken `jmpd` also pops RS into R
(R113). That the P after a fetch wraps is the spec's own decision D3 (log entry 10). -/
def Obligations.NotTakenIsNxt : Prop :=
  ∀ (s : State) (t : PageAddr),
    (s.r = 0 → exec (.jmpd t) s = exec .nxt s.popRSToR ∧ exec (.jsrn t) s = exec .nxt s) ∧
    (s.a.getLsbD 15 = true → exec (.jmpp t) s = exec .nxt s ∧ exec (.jsrp t) s = exec .nxt s) ∧
    (s.a ≠ 0 → exec (.jmpz t) s = exec .nxt s ∧ exec (.jsrz t) s = exec .nxt s) ∧
    (∃ u, exec .nxt s = .next u ∧ s.fetchedWord u s.p ∧ s.sameData u ∧ u.r = s.r ∧ u.rs = s.rs)

/-! ## Control group, slot 2, and slot 3 -/

/-- `into` makes a token fetch at P and is no call; the `exit` opcode makes one at R and pops RS into R. An interrupt
may be injected at either (R125, R126, R233). That a popped cell goes round to the end is the spec's own decision D2
(log entry 9). That the P after a fetch wraps is its decision D3 (log entry 10). That a device behind an overridden
address is not read is the model's choice (log entry 23). -/
def Obligations.IntoAndExitEnterListState : Prop :=
  ∀ s : State, s.rs.wf = true →
    (∃ u, exec .into s = .next u ∧ s.fetchedToken u s.p ∧ s.sameData u ∧ u.r = s.r ∧ u.rs = s.rs) ∧
    (∃ u, exec .exit s = .next u ∧ s.fetchedToken u s.r ∧ s.sameData u ∧
      u.returnStack = s.rs.toList ++ s.rs.toList.take 1)

/-- `repd`: while R is non-zero it is decremented and the same word runs again from slot 0; at zero R is popped from
RS and slot 3 runs. Nothing is fetched: I, P and memory stay (R127). That a popped cell goes round to the end is the
spec's own decision D2 (log entry 9). -/
def Obligations.RepdCountsDownThenPops : Prop :=
  ∀ s : State, s.rs.wf = true →
    ∃ u, exec .repd s = .next u ∧ s.sameData u ∧ u.i = s.i ∧ u.p = s.p ∧ u.execState = s.execState ∧
      u.answers = s.answers ∧ u.devices = s.devices ∧ u.bus = .none ∧
      (s.r.toNat ≠ 0 → u.slot = .s0 ∧ u.r.toNat + 1 = s.r.toNat ∧ u.rs = s.rs) ∧
      (s.r.toNat = 0 → u.slot = .s3 ∧ u.returnStack = s.rs.toList ++ s.rs.toList.take 1)

/-- `repp` and `repz`: their encodings, with either value of bit 15; the word runs again from slot 0 while A is
positive, respectively zero, else slot 3 runs; nothing is written but `slot` (R128, R129). -/
def Obligations.ReppAndRepzWriteOnlySlot : Prop :=
  (∀ w, opBits w .s2 = 0x02 → decode (.code .s2) w = .repp) ∧
  (∀ w, opBits w .s2 = 0x03 → decode (.code .s2) w = .repz) ∧
  ∀ s : State,
    (∃ u, exec .repp s = .next u ∧ u.slot = (if s.a.toNat < 32768 then .s0 else .s3) ∧
      u = (s.setSlot u.slot).setBus .none) ∧
    (∃ u, exec .repz s = .next u ∧ u.slot = (if s.a.toNat = 0 then .s0 else .s3) ∧
      u = (s.setSlot u.slot).setBus .none)

/-- `nxt` fetches the word at P and changes nothing else; `ret` fetches the word at R and pops RS into R (R130, R131).
That a popped cell goes round to the end is the spec's own decision D2 (log entry 9). That the P after a fetch wraps
is its decision D3 (log entry 10). -/
def Obligations.NxtAndRetFetch : Prop :=
  ∀ s : State, s.rs.wf = true →
    (∃ u, exec .nxt s = .next u ∧ s.fetchedWord u s.p ∧ s.sameData u ∧ u.r = s.r ∧ u.rs = s.rs) ∧
    (∃ u, exec .ret s = .next u ∧ s.fetchedWord u s.r ∧ s.sameData u ∧
      u.returnStack = s.rs.toList ++ s.rs.toList.take 1)

/-- The three returns do the same to R, RS, P, I and everything else, and differ only in the state the fetched word is
executed in (R212, R275), at a fetch at which no token is injected; the token fetch of the other two also uses up the
platform's answer, `hold` low, that stood for it. -/
def Obligations.ReturnsDifferOnlyInState : Prop :=
  ∀ s : State, exec .tokExit s = exec .exit s ∧
    (s.held = none → ∃ u, exec .exit s = .next u ∧ u.answers = s.answers.rest ∧
      exec .ret s = .next (((u.setExecState .code).setAnswers s.answers).setBus (.fetchWord s.r)))

/-! ## Tokens and interrupts -/

/-- `tok.exit`, `tok.call` and `tok.nest`: the fetch each makes, what it does to the return stack, and the data stack
and memory as they were (R212 to R214). That a popped cell goes round to the end is the spec's own decision D2 (log
entry 9). That the P after a fetch wraps is its decision D3 (log entry 10). That a device behind an overridden address
is not read is the model's choice (log entry 23). -/
def Obligations.TokensReturnCallAndNest : Prop :=
  ∀ (s : State) (a : Word), s.rs.wf = true →
    (∃ u, exec .tokExit s = .next u ∧ s.fetchedToken u s.r ∧ s.sameData u ∧
      u.returnStack = s.rs.toList ++ s.rs.toList.take 1) ∧
    (∃ u, exec (.tokCall a) s = .next u ∧ s.fetchedWord u a ∧ s.sameData u ∧
      u.returnStack = s.p :: s.r :: s.rs.toList.dropLast) ∧
    (∃ u, exec (.tokNest a) s = .next u ∧ s.fetchedToken u a ∧ s.sameData u ∧
      u.returnStack = s.p :: s.r :: s.rs.toList.dropLast)

/-- Injection: when the platform holds `hold` high at a token fetch, I takes its token and P keeps the fetch address,
and everything else happens as at the same fetch without it; the injected token is what the next step runs. The
instructions that make a token fetch are exactly `into`, the `exit` opcode, `tok.exit` and `tok.nest` (R233). That a
device behind the overridden address is not read is the model's choice (log entry 23). That the P after a fetch wraps
is the spec's own decision D3 (log entry 10), that an injected zero runs as `tok.exit` its own D7 (log entry 13). -/
def Obligations.InjectionReplacesOnlyToken : Prop :=
  (∀ i : Instr, accessKindOf i = .token ↔ i = .into ∨ i = .exit ∨ i = .tokExit ∨ ∃ a, i = .tokNest a) ∧
  ∀ (i : Instr) (s : State) (token : Word) (low high : TokenAnswers), accessKindOf i = .token →
    low.next = .memory → high.next = .inject token →
    ∃ t addr, exec i (s.setAnswers low) = .next t ∧
      t.bus = .fetchToken addr ∧ t.i = s.memRead addr ∧ t.p = addr + 1 ∧ t.execState = .list ∧
      exec i (s.setAnswers high) =
        .next ((((t.setI token).setP addr).setDevices s.devices).setAnswers high.rest) ∧
      ∀ u, exec i (s.setAnswers high) = .next u → step u = exec (decode .list token) u

/-- What the platform would answer at a token fetch is used up by, and shows in, no step but a token fetch (R233): a
step of another kind does the same whatever those answers are, for ever. It speaks of the answers at token fetches only:
what `hold` does when raised anywhere else, Code State included, is outside the model by the spec's own decision D6
(log entry 8), and nothing is claimed of it. -/
def Obligations.OnlyTokenFetchesUseTokenAnswers : Prop :=
  ∀ s : State, accessKindOf (decode s.place s.i) ≠ .token →
    ∃ t, step s = .next t ∧ ∀ as, step (s.setAnswers as) = .next (t.setAnswers as)

/-- An interrupt and its return. The injected non-zero token, run with P still at the displaced token, saves R on RS
and leaves P in R; a handler that gives R and RS back as it found them and ends in the `exit` opcode or `tok.exit`, at
a fetch that is not overridden in turn, fetches the displaced token next, with the interrupted program's R (R238,
R239). That the word the handler's return popped goes round to the place of the oldest cell is the spec's own decision
D2 (log entry 9), that the P after the fetch wraps its decision D3 (log entry 10). -/
def Obligations.InterruptReturnsToDisplacedToken : Prop :=
  ∀ s : State, s.execState = .list → s.i ≠ 0 → s.rs.wf = true →
    ∃ t, step s = .next t ∧ t.r = s.p ∧
      ∀ u : State, u.rs.wf = true → u.returnStack = t.returnStack → u.held = none →
        decode u.place u.i = .exit ∨ decode u.place u.i = .tokExit →
        ∃ v, step u = .next v ∧ v.execState = .list ∧ v.i = u.memRead s.p ∧ v.p = s.p + 1 ∧ v.r = s.r ∧
          v.rs.toList = s.rs.toList.dropLast ++ [s.r]

/-- A stuck interrupt line stays stuck: while the platform holds `hold` high at every token fetch, each token fetch takes
its token and leaves P at the fetch address, never past it, and no step of any kind ends that (R233, R234). -/
def Obligations.StuckLineOverridesEveryTokenFetch : Prop :=
  ∀ (s t : State) (token : Word), s.stuckHigh token → step s = .next t →
    t.stuckHigh token ∧ ∀ addr, t.bus = .fetchToken addr → t.i = token ∧ t.p = addr

/-- The livelock of R234: a handler's return that is overridden in turn leaves P at the displaced token, so the
interrupted list has not advanced, and the return stack is balanced: R is the interrupted program's, and of RS only the
oldest cell is another. That it is the word the return popped is the spec's own decision D2 (log entry 9). -/
def Obligations.OverriddenReturnKeepsTheDisplacedToken : Prop :=
  ∀ (s : State) (token : Word), s.execState = .list → s.i ≠ 0 → s.rs.wf = true →
    ∃ t, step s = .next t ∧ t.r = s.p ∧
      ∀ u : State, u.rs.wf = true → u.returnStack = t.returnStack → u.held = some token →
        decode u.place u.i = .exit ∨ decode u.place u.i = .tokExit →
        ∃ v, step u = .next v ∧ v.execState = .list ∧ v.i = token ∧ v.p = s.p ∧ v.r = s.r ∧
          v.rs.toList = s.rs.toList.dropLast ++ [s.r]

/-! ## Reset -/

/-- Right after reset: Code State, slot 0 of the word at address 0, P past it (R40, R260; P = 1 is the spec's own
decision D5, log entry 12), and the values the model's log names for what the spec leaves unspecified or to the
implementation (log entries 1, 2, 3, 6 and 7). -/
def Obligations.ResetState : Prop :=
  State.reset.execState = .code ∧ State.reset.slot = .s0 ∧ State.reset.p = 1 ∧
  State.reset.i = State.reset.memRead 0 ∧ State.reset.a = 0 ∧ State.reset.d = 0 ∧ State.reset.r = 0 ∧
  State.reset.ds.depth = 256 ∧ State.reset.rs.depth = 256 ∧ State.reset.answers = ⟨[], .same .memory⟩ ∧ State.reset.devices.windows = [] ∧
  ∀ b, State.reset.memRead b = 0

/-- Reset of any machine, so with any stack depths, any platform and any value of what the spec leaves unspecified
(R7, R40), fetches word 0 in Code State (R260; that P is 1 is the spec's own decision D5, log entry 12). That A, D, R
and the stacks afterwards are those of the machine it is asked of is how the model says that they may hold any value
(log entry 19). `State.resetWith` is such a reset with the depths and the platform of its parameters, and the machine
`State.reset` with those parameters placed gets there in one step, the `jmp 0x000` its empty memory left in I (the
model's choice, log entries 3 and 5). -/
def Obligations.ResetFetchesWordZero : Prop :=
  (∀ s : State, s.resetFrom.i = s.memRead 0 ∧ s.resetFrom.p = 1 ∧ s.resetFrom.execState = .code ∧
    s.resetFrom.slot = .s0 ∧ s.resetFrom.bus = .fetchWord 0 ∧ s.sameData s.resetFrom ∧ s.resetFrom.r = s.r ∧
    s.resetFrom.rs = s.rs ∧ s.resetFrom.devices = s.devices.afterRead 0 ∧ s.resetFrom.answers = s.answers) ∧
  ∀ q : Params,
    (State.resetWith q).ds.depth = q.dsDepth ∧ (State.resetWith q).rs.depth = q.rsDepth ∧
    (State.resetWith q).mem = q.mem ∧ (State.resetWith q).answers = q.answers ∧
    (State.resetWith q).devices = q.devices.afterRead 0 ∧
    (q.devices.covers 0 = false → (State.resetWith q).i = q.mem.readWord 0) ∧
    step q.machine = .next (State.resetWith q)
end

