-- ==== Sys2Proof/Laws/Memory.lean ====
section
/-! SUPPORT. What a write to memory does: the canonical form stays, the written word reads back, every other word reads
as before. -/

namespace Sys2Proof.Machine

theorem readCells_below {lo n : Nat} {cs : List Host.Cell} (h : canonicalFrom lo cs = true) (hn : n < lo) :
    readCells cs n = Config.unlistedByte := by
  induction cs generalizing lo with
  | nil => rfl
  | cons c rest ih =>
    obtain ⟨k, b⟩ := c
    simp only [canonicalFrom, Bool.and_eq_true, decide_eq_true_eq] at h
    simp only [readCells]
    rw [if_neg (by omega)]
    exact ih h.2 (by omega)

theorem canonicalFrom_mono {lo lo' : Nat} {cs : List Host.Cell} (h : canonicalFrom lo cs = true) (hl : lo' ≤ lo) :
    canonicalFrom lo' cs = true := by
  cases cs with
  | nil => rfl
  | cons c rest =>
    obtain ⟨k, b⟩ := c
    simp only [canonicalFrom, Bool.and_eq_true, decide_eq_true_eq] at h ⊢
    exact ⟨⟨⟨by omega, h.1.1.2⟩, h.1.2⟩, h.2⟩

theorem writeCells_canonical {lo n : Nat} {cs : List Host.Cell} (v : Byte) (h : canonicalFrom lo cs = true)
    (hlo : lo ≤ n) (hn : n < 131072) : canonicalFrom lo (writeCells cs n v) = true := by
  induction cs generalizing lo with
  | nil =>
    by_cases hv : v = Config.unlistedByte <;> simp [writeCells, canonicalFrom, hv, hlo, hn]
  | cons c rest ih =>
    obtain ⟨k, b⟩ := c
    have h' := h
    simp only [canonicalFrom, Bool.and_eq_true, decide_eq_true_eq] at h
    obtain ⟨⟨⟨hk, hk'⟩, hb⟩, hrest⟩ := h
    simp only [writeCells]
    split
    · split
      · exact h'
      · simp_all [canonicalFrom]
    · split
      · split
        · exact canonicalFrom_mono hrest (by omega)
        · simp_all [canonicalFrom]
      · simp only [canonicalFrom, Bool.and_eq_true, decide_eq_true_eq]
        exact ⟨⟨⟨hk, hk'⟩, hb⟩, ih hrest (by omega)⟩

theorem readCells_writeCells_same {lo n : Nat} {cs : List Host.Cell} (v : Byte) (h : canonicalFrom lo cs = true) :
    readCells (writeCells cs n v) n = v := by
  induction cs generalizing lo with
  | nil => by_cases hv : v = Config.unlistedByte <;> simp [writeCells, readCells, hv]
  | cons c rest ih =>
    obtain ⟨k, b⟩ := c
    have h' := h
    simp only [canonicalFrom, Bool.and_eq_true, decide_eq_true_eq] at h
    simp only [writeCells]
    split
    · rename_i hlt
      split
      · rename_i hv
        have hr : readCells rest n = Config.unlistedByte := readCells_below h.2 (by omega)
        rw [readCells, if_neg (by omega), hr, hv]
      · simp [readCells]
    · split
      · rename_i hnk
        split
        · rename_i hv
          rw [readCells_below h.2 (by omega), hv]
        · simp [readCells]
      · rename_i hne
        rw [readCells, if_neg hne]
        exact ih h.2

theorem readCells_writeCells_other {n n' : Nat} (cs : List Host.Cell) (v : Byte) (hne : n' ≠ n) :
    readCells (writeCells cs n v) n' = readCells cs n' := by
  induction cs with
  | nil => by_cases hv : v = Config.unlistedByte <;> simp [writeCells, readCells, hv, hne]
  | cons c rest ih =>
    obtain ⟨k, b⟩ := c
    simp only [writeCells]
    split
    · split <;> simp [readCells, hne]
    · split
      · rename_i hnk
        subst hnk
        split <;> simp [readCells, hne]
      · simp only [readCells, ih]

/-- A word is its high byte before its low byte. -/
theorem word_of_bytes (v : Word) : v.extractLsb' 8 8 ++ v.extractLsb' 0 8 = v := by
  ext j hj
  simp only [BitVec.getElem_append, BitVec.getElem_extractLsb', Nat.zero_add]
  split
  · exact BitVec.getLsbD_eq_getElem hj
  · rw [show 8 + (j - 8) = j by omega]
    exact BitVec.getLsbD_eq_getElem hj

/-- A write keeps the canonical form. -/
theorem Memory.writeWord_wf {m : Memory} (a v : Word) (h : m.wf = true) : (m.writeWord a v).wf = true := by
  have ha := a.isLt
  exact writeCells_canonical _ (writeCells_canonical _ h (by omega) (by omega)) (by omega) (by omega)

/-- The word written reads back. -/
theorem Memory.readWord_writeWord_same {m : Memory} (a v : Word) (h : m.wf = true) :
    (m.writeWord a v).readWord a = v := by
  have ha := a.isLt
  have h1 : canonicalFrom 0 (writeCells m.cells (2 * a.toNat) (v.extractLsb' 0 8)) = true :=
    writeCells_canonical _ h (by omega) (by omega)
  simp only [Memory.readWord, Memory.writeWord]
  rw [readCells_writeCells_same _ h1, readCells_writeCells_other _ _ (by omega), readCells_writeCells_same _ h]
  exact word_of_bytes v

/-- Every other word reads as before. -/
theorem Memory.readWord_writeWord_other {a b : Word} (m : Memory) (v : Word) (h : b ≠ a) :
    (m.writeWord a v).readWord b = m.readWord b := by
  have hne : b.toNat ≠ a.toNat := fun e => h (BitVec.eq_of_toNat_eq e)
  simp only [Memory.readWord, Memory.writeWord]
  rw [readCells_writeCells_other _ _ (by omega), readCells_writeCells_other _ _ (by omega),
    readCells_writeCells_other _ _ (by omega), readCells_writeCells_other _ _ (by omega)]

/-- An empty memory is canonical and reads as unlisted everywhere. -/
@[simp] theorem Memory.readWord_empty (a : Word) : (Memory.mk []).readWord a = Config.unlistedWord := rfl

/-- Memory is canonical right after reset. -/
theorem State.reset_mem_wf : State.reset.mem.wf = true := rfl

end Sys2Proof.Machine
end

