-- ==== Sys2Proof/Laws/Devices.lean ====
section
/-! SUPPORT. What a read and a write do behind a device window and in plain memory. -/

namespace Sys2Proof.Machine

/-- A read moves no window. -/
@[simp] theorem Devices.afterRead_covers (dv : Devices) (a b : Word) : (dv.afterRead a).covers b = dv.covers b := by
  unfold Devices.afterRead
  split <;> rfl

/-- A read outside every window leaves the devices alone. -/
theorem Devices.afterRead_plain {dv : Devices} {a : Word} (h : dv.covers a = false) : dv.afterRead a = dv := by
  simp [Devices.afterRead, h]

/-- A read behind a window uses up one reply. -/
theorem Devices.afterRead_device {dv : Devices} {a : Word} (h : dv.covers a = true) :
    dv.afterRead a = ⟨dv.windows, dv.replies.tail, dv.reads + 1⟩ := by
  simp [Devices.afterRead, h]

theorem State.memRead_plain {s : State} {a : Word} (h : s.devices.covers a = false) :
    s.memRead a = s.mem.readWord a := by
  simp [State.memRead, h]

theorem State.memRead_device {s : State} {a : Word} (h : s.devices.covers a = true) :
    s.memRead a = s.devices.reply a := by
  simp [State.memRead, h]

/-- With no window every address is plain memory. -/
@[simp] theorem Devices.covers_none (rs : List Word) (n : Nat) (a : Word) : (Devices.mk [] rs n).covers a = false := rfl

/-- A write keeps the canonical form, wherever it goes. -/
theorem State.writtenMem_wf {s : State} (a v : Word) (h : s.mem.wf = true) : (s.writtenMem a v).wf = true := by
  unfold State.writtenMem
  split
  · exact h
  · exact Memory.writeWord_wf a v h

/-- A word written to plain memory reads back. -/
theorem State.writtenMem_same {s : State} {a : Word} (v : Word) (h : s.mem.wf = true)
    (hp : s.devices.covers a = false) : (s.writtenMem a v).readWord a = v := by
  simp only [State.writtenMem, hp]
  exact Memory.readWord_writeWord_same a v h

/-- A write to a device leaves plain memory alone. -/
theorem State.writtenMem_device {s : State} {a : Word} (v : Word) (hd : s.devices.covers a = true) :
    s.writtenMem a v = s.mem := by
  simp [State.writtenMem, hd]

/-- Every other word reads as before, wherever the write goes. -/
theorem State.writtenMem_other {s : State} {a b : Word} (v : Word) (h : b ≠ a) :
    (s.writtenMem a v).readWord b = s.mem.readWord b := by
  unfold State.writtenMem
  split
  · rfl
  · exact Memory.readWord_writeWord_other s.mem v h

end Sys2Proof.Machine
end

