-- ==== Sys2Proof/Laws/Stack.lean ====
section
/-! SUPPORT. What a push and a pop do to a stack memory's depth and form. -/

namespace Sys2Proof.Machine

@[simp] theorem Stack.push_depth (st : Stack) (v : Word) : (st.push v).depth = st.depth := by
  simp [Stack.push, Stack.depth]

@[simp] theorem Stack.popped_depth (st : Stack) : st.popped.depth = st.depth := rfl

@[simp] theorem Stack.toList_length (st : Stack) : st.toList.length = st.depth := by simp [Stack.toList]

@[simp] theorem Stack.reset_depth (n : Nat) : (Stack.reset n).depth = n := List.length_replicate

/-- A stack of at least one cell is in order right after reset. -/
theorem Stack.reset_wf {n : Nat} (h : 0 < n) : (Stack.reset n).wf = true := by
  simp only [Stack.wf, Stack.reset_depth]
  exact decide_eq_true h

/-- A push leaves an index that names a cell. -/
theorem Stack.push_wf {st : Stack} (v : Word) (h : st.wf = true) : (st.push v).wf = true := by
  simp only [Stack.wf, decide_eq_true_eq, Stack.push_depth] at h ⊢
  exact Nat.mod_lt _ (by omega)

/-- A pop leaves an index that names a cell. -/
theorem Stack.popped_wf {st : Stack} (h : st.wf = true) : st.popped.wf = true := by
  simp only [Stack.wf, decide_eq_true_eq] at h
  have hd : 0 < st.depth := by omega
  exact decide_eq_true (Nat.mod_lt _ hd)

/-- The word just pushed is the newest. -/
theorem Stack.top_push {st : Stack} (v : Word) (h : st.wf = true) : (st.push v).top = v := by
  have hj : (st.index + 1) % st.depth < st.cells.length := by
    simp only [Stack.wf, decide_eq_true_eq] at h
    exact Nat.mod_lt _ (by omega)
  simp [Stack.top, Stack.push, hj]

/-- A pop after a push moves the index back to where it was. -/
theorem Stack.popped_push_index {st : Stack} (v : Word) (h : st.wf = true) : (st.push v).popped.index = st.index := by
  simp only [Stack.wf, decide_eq_true_eq] at h
  show ((st.index + 1) % st.depth + (st.push v).depth - 1) % (st.push v).depth = st.index
  rw [Stack.push_depth]
  rcases Nat.lt_or_ge (st.index + 1) st.depth with hlt | hge
  · rw [Nat.mod_eq_of_lt hlt, show st.index + 1 + st.depth - 1 = st.index + st.depth by omega, Nat.add_mod_right,
      Nat.mod_eq_of_lt h]
  · have he : st.index + 1 = st.depth := by omega
    have hl : st.depth - 1 < st.depth := by omega
    rw [he, Nat.mod_self, Nat.zero_add, Nat.mod_eq_of_lt hl]
    omega

end Sys2Proof.Machine
end

