-- ==== Sys2Proof/Laws/State.lean ====
section
/-! SUPPORT. One lemma for each field under each update of one field. -/

namespace Sys2Proof.Machine

variable (s : State)

@[simp] theorem State.setA_a (v : Word) : (s.setA v).a = v := rfl
@[simp] theorem State.setA_d (v : Word) : (s.setA v).d = s.d := rfl
@[simp] theorem State.setA_r (v : Word) : (s.setA v).r = s.r := rfl
@[simp] theorem State.setA_p (v : Word) : (s.setA v).p = s.p := rfl
@[simp] theorem State.setA_i (v : Word) : (s.setA v).i = s.i := rfl
@[simp] theorem State.setA_ds (v : Word) : (s.setA v).ds = s.ds := rfl
@[simp] theorem State.setA_rs (v : Word) : (s.setA v).rs = s.rs := rfl
@[simp] theorem State.setA_execState (v : Word) : (s.setA v).execState = s.execState := rfl
@[simp] theorem State.setA_slot (v : Word) : (s.setA v).slot = s.slot := rfl
@[simp] theorem State.setA_mem (v : Word) : (s.setA v).mem = s.mem := rfl
@[simp] theorem State.setA_devices (v : Word) : (s.setA v).devices = s.devices := rfl
@[simp] theorem State.setA_answers (v : Word) : (s.setA v).answers = s.answers := rfl
@[simp] theorem State.setA_bus (v : Word) : (s.setA v).bus = s.bus := rfl

@[simp] theorem State.setD_a (v : Word) : (s.setD v).a = s.a := rfl
@[simp] theorem State.setD_d (v : Word) : (s.setD v).d = v := rfl
@[simp] theorem State.setD_r (v : Word) : (s.setD v).r = s.r := rfl
@[simp] theorem State.setD_p (v : Word) : (s.setD v).p = s.p := rfl
@[simp] theorem State.setD_i (v : Word) : (s.setD v).i = s.i := rfl
@[simp] theorem State.setD_ds (v : Word) : (s.setD v).ds = s.ds := rfl
@[simp] theorem State.setD_rs (v : Word) : (s.setD v).rs = s.rs := rfl
@[simp] theorem State.setD_execState (v : Word) : (s.setD v).execState = s.execState := rfl
@[simp] theorem State.setD_slot (v : Word) : (s.setD v).slot = s.slot := rfl
@[simp] theorem State.setD_mem (v : Word) : (s.setD v).mem = s.mem := rfl
@[simp] theorem State.setD_devices (v : Word) : (s.setD v).devices = s.devices := rfl
@[simp] theorem State.setD_answers (v : Word) : (s.setD v).answers = s.answers := rfl
@[simp] theorem State.setD_bus (v : Word) : (s.setD v).bus = s.bus := rfl

@[simp] theorem State.setR_a (v : Word) : (s.setR v).a = s.a := rfl
@[simp] theorem State.setR_d (v : Word) : (s.setR v).d = s.d := rfl
@[simp] theorem State.setR_r (v : Word) : (s.setR v).r = v := rfl
@[simp] theorem State.setR_p (v : Word) : (s.setR v).p = s.p := rfl
@[simp] theorem State.setR_i (v : Word) : (s.setR v).i = s.i := rfl
@[simp] theorem State.setR_ds (v : Word) : (s.setR v).ds = s.ds := rfl
@[simp] theorem State.setR_rs (v : Word) : (s.setR v).rs = s.rs := rfl
@[simp] theorem State.setR_execState (v : Word) : (s.setR v).execState = s.execState := rfl
@[simp] theorem State.setR_slot (v : Word) : (s.setR v).slot = s.slot := rfl
@[simp] theorem State.setR_mem (v : Word) : (s.setR v).mem = s.mem := rfl
@[simp] theorem State.setR_devices (v : Word) : (s.setR v).devices = s.devices := rfl
@[simp] theorem State.setR_answers (v : Word) : (s.setR v).answers = s.answers := rfl
@[simp] theorem State.setR_bus (v : Word) : (s.setR v).bus = s.bus := rfl

@[simp] theorem State.setP_a (v : Word) : (s.setP v).a = s.a := rfl
@[simp] theorem State.setP_d (v : Word) : (s.setP v).d = s.d := rfl
@[simp] theorem State.setP_r (v : Word) : (s.setP v).r = s.r := rfl
@[simp] theorem State.setP_p (v : Word) : (s.setP v).p = v := rfl
@[simp] theorem State.setP_i (v : Word) : (s.setP v).i = s.i := rfl
@[simp] theorem State.setP_ds (v : Word) : (s.setP v).ds = s.ds := rfl
@[simp] theorem State.setP_rs (v : Word) : (s.setP v).rs = s.rs := rfl
@[simp] theorem State.setP_execState (v : Word) : (s.setP v).execState = s.execState := rfl
@[simp] theorem State.setP_slot (v : Word) : (s.setP v).slot = s.slot := rfl
@[simp] theorem State.setP_mem (v : Word) : (s.setP v).mem = s.mem := rfl
@[simp] theorem State.setP_devices (v : Word) : (s.setP v).devices = s.devices := rfl
@[simp] theorem State.setP_answers (v : Word) : (s.setP v).answers = s.answers := rfl
@[simp] theorem State.setP_bus (v : Word) : (s.setP v).bus = s.bus := rfl

@[simp] theorem State.setI_a (v : Word) : (s.setI v).a = s.a := rfl
@[simp] theorem State.setI_d (v : Word) : (s.setI v).d = s.d := rfl
@[simp] theorem State.setI_r (v : Word) : (s.setI v).r = s.r := rfl
@[simp] theorem State.setI_p (v : Word) : (s.setI v).p = s.p := rfl
@[simp] theorem State.setI_i (v : Word) : (s.setI v).i = v := rfl
@[simp] theorem State.setI_ds (v : Word) : (s.setI v).ds = s.ds := rfl
@[simp] theorem State.setI_rs (v : Word) : (s.setI v).rs = s.rs := rfl
@[simp] theorem State.setI_execState (v : Word) : (s.setI v).execState = s.execState := rfl
@[simp] theorem State.setI_slot (v : Word) : (s.setI v).slot = s.slot := rfl
@[simp] theorem State.setI_mem (v : Word) : (s.setI v).mem = s.mem := rfl
@[simp] theorem State.setI_devices (v : Word) : (s.setI v).devices = s.devices := rfl
@[simp] theorem State.setI_answers (v : Word) : (s.setI v).answers = s.answers := rfl
@[simp] theorem State.setI_bus (v : Word) : (s.setI v).bus = s.bus := rfl

@[simp] theorem State.setDS_a (v : Stack) : (s.setDS v).a = s.a := rfl
@[simp] theorem State.setDS_d (v : Stack) : (s.setDS v).d = s.d := rfl
@[simp] theorem State.setDS_r (v : Stack) : (s.setDS v).r = s.r := rfl
@[simp] theorem State.setDS_p (v : Stack) : (s.setDS v).p = s.p := rfl
@[simp] theorem State.setDS_i (v : Stack) : (s.setDS v).i = s.i := rfl
@[simp] theorem State.setDS_ds (v : Stack) : (s.setDS v).ds = v := rfl
@[simp] theorem State.setDS_rs (v : Stack) : (s.setDS v).rs = s.rs := rfl
@[simp] theorem State.setDS_execState (v : Stack) : (s.setDS v).execState = s.execState := rfl
@[simp] theorem State.setDS_slot (v : Stack) : (s.setDS v).slot = s.slot := rfl
@[simp] theorem State.setDS_mem (v : Stack) : (s.setDS v).mem = s.mem := rfl
@[simp] theorem State.setDS_devices (v : Stack) : (s.setDS v).devices = s.devices := rfl
@[simp] theorem State.setDS_answers (v : Stack) : (s.setDS v).answers = s.answers := rfl
@[simp] theorem State.setDS_bus (v : Stack) : (s.setDS v).bus = s.bus := rfl

@[simp] theorem State.setRS_a (v : Stack) : (s.setRS v).a = s.a := rfl
@[simp] theorem State.setRS_d (v : Stack) : (s.setRS v).d = s.d := rfl
@[simp] theorem State.setRS_r (v : Stack) : (s.setRS v).r = s.r := rfl
@[simp] theorem State.setRS_p (v : Stack) : (s.setRS v).p = s.p := rfl
@[simp] theorem State.setRS_i (v : Stack) : (s.setRS v).i = s.i := rfl
@[simp] theorem State.setRS_ds (v : Stack) : (s.setRS v).ds = s.ds := rfl
@[simp] theorem State.setRS_rs (v : Stack) : (s.setRS v).rs = v := rfl
@[simp] theorem State.setRS_execState (v : Stack) : (s.setRS v).execState = s.execState := rfl
@[simp] theorem State.setRS_slot (v : Stack) : (s.setRS v).slot = s.slot := rfl
@[simp] theorem State.setRS_mem (v : Stack) : (s.setRS v).mem = s.mem := rfl
@[simp] theorem State.setRS_devices (v : Stack) : (s.setRS v).devices = s.devices := rfl
@[simp] theorem State.setRS_answers (v : Stack) : (s.setRS v).answers = s.answers := rfl
@[simp] theorem State.setRS_bus (v : Stack) : (s.setRS v).bus = s.bus := rfl

@[simp] theorem State.setExecState_a (v : ExecState) : (s.setExecState v).a = s.a := rfl
@[simp] theorem State.setExecState_d (v : ExecState) : (s.setExecState v).d = s.d := rfl
@[simp] theorem State.setExecState_r (v : ExecState) : (s.setExecState v).r = s.r := rfl
@[simp] theorem State.setExecState_p (v : ExecState) : (s.setExecState v).p = s.p := rfl
@[simp] theorem State.setExecState_i (v : ExecState) : (s.setExecState v).i = s.i := rfl
@[simp] theorem State.setExecState_ds (v : ExecState) : (s.setExecState v).ds = s.ds := rfl
@[simp] theorem State.setExecState_rs (v : ExecState) : (s.setExecState v).rs = s.rs := rfl
@[simp] theorem State.setExecState_execState (v : ExecState) : (s.setExecState v).execState = v := rfl
@[simp] theorem State.setExecState_slot (v : ExecState) : (s.setExecState v).slot = s.slot := rfl
@[simp] theorem State.setExecState_mem (v : ExecState) : (s.setExecState v).mem = s.mem := rfl
@[simp] theorem State.setExecState_devices (v : ExecState) : (s.setExecState v).devices = s.devices := rfl
@[simp] theorem State.setExecState_answers (v : ExecState) : (s.setExecState v).answers = s.answers := rfl
@[simp] theorem State.setExecState_bus (v : ExecState) : (s.setExecState v).bus = s.bus := rfl

@[simp] theorem State.setSlot_a (v : Slot) : (s.setSlot v).a = s.a := rfl
@[simp] theorem State.setSlot_d (v : Slot) : (s.setSlot v).d = s.d := rfl
@[simp] theorem State.setSlot_r (v : Slot) : (s.setSlot v).r = s.r := rfl
@[simp] theorem State.setSlot_p (v : Slot) : (s.setSlot v).p = s.p := rfl
@[simp] theorem State.setSlot_i (v : Slot) : (s.setSlot v).i = s.i := rfl
@[simp] theorem State.setSlot_ds (v : Slot) : (s.setSlot v).ds = s.ds := rfl
@[simp] theorem State.setSlot_rs (v : Slot) : (s.setSlot v).rs = s.rs := rfl
@[simp] theorem State.setSlot_execState (v : Slot) : (s.setSlot v).execState = s.execState := rfl
@[simp] theorem State.setSlot_slot (v : Slot) : (s.setSlot v).slot = v := rfl
@[simp] theorem State.setSlot_mem (v : Slot) : (s.setSlot v).mem = s.mem := rfl
@[simp] theorem State.setSlot_devices (v : Slot) : (s.setSlot v).devices = s.devices := rfl
@[simp] theorem State.setSlot_answers (v : Slot) : (s.setSlot v).answers = s.answers := rfl
@[simp] theorem State.setSlot_bus (v : Slot) : (s.setSlot v).bus = s.bus := rfl

@[simp] theorem State.setMem_a (v : Memory) : (s.setMem v).a = s.a := rfl
@[simp] theorem State.setMem_d (v : Memory) : (s.setMem v).d = s.d := rfl
@[simp] theorem State.setMem_r (v : Memory) : (s.setMem v).r = s.r := rfl
@[simp] theorem State.setMem_p (v : Memory) : (s.setMem v).p = s.p := rfl
@[simp] theorem State.setMem_i (v : Memory) : (s.setMem v).i = s.i := rfl
@[simp] theorem State.setMem_ds (v : Memory) : (s.setMem v).ds = s.ds := rfl
@[simp] theorem State.setMem_rs (v : Memory) : (s.setMem v).rs = s.rs := rfl
@[simp] theorem State.setMem_execState (v : Memory) : (s.setMem v).execState = s.execState := rfl
@[simp] theorem State.setMem_slot (v : Memory) : (s.setMem v).slot = s.slot := rfl
@[simp] theorem State.setMem_mem (v : Memory) : (s.setMem v).mem = v := rfl
@[simp] theorem State.setMem_devices (v : Memory) : (s.setMem v).devices = s.devices := rfl
@[simp] theorem State.setMem_answers (v : Memory) : (s.setMem v).answers = s.answers := rfl
@[simp] theorem State.setMem_bus (v : Memory) : (s.setMem v).bus = s.bus := rfl

@[simp] theorem State.setDevices_a (v : Devices) : (s.setDevices v).a = s.a := rfl
@[simp] theorem State.setDevices_d (v : Devices) : (s.setDevices v).d = s.d := rfl
@[simp] theorem State.setDevices_r (v : Devices) : (s.setDevices v).r = s.r := rfl
@[simp] theorem State.setDevices_p (v : Devices) : (s.setDevices v).p = s.p := rfl
@[simp] theorem State.setDevices_i (v : Devices) : (s.setDevices v).i = s.i := rfl
@[simp] theorem State.setDevices_ds (v : Devices) : (s.setDevices v).ds = s.ds := rfl
@[simp] theorem State.setDevices_rs (v : Devices) : (s.setDevices v).rs = s.rs := rfl
@[simp] theorem State.setDevices_execState (v : Devices) : (s.setDevices v).execState = s.execState := rfl
@[simp] theorem State.setDevices_slot (v : Devices) : (s.setDevices v).slot = s.slot := rfl
@[simp] theorem State.setDevices_mem (v : Devices) : (s.setDevices v).mem = s.mem := rfl
@[simp] theorem State.setDevices_devices (v : Devices) : (s.setDevices v).devices = v := rfl
@[simp] theorem State.setDevices_answers (v : Devices) : (s.setDevices v).answers = s.answers := rfl
@[simp] theorem State.setDevices_bus (v : Devices) : (s.setDevices v).bus = s.bus := rfl

@[simp] theorem State.setAnswers_a (v : TokenAnswers) : (s.setAnswers v).a = s.a := rfl
@[simp] theorem State.setAnswers_d (v : TokenAnswers) : (s.setAnswers v).d = s.d := rfl
@[simp] theorem State.setAnswers_r (v : TokenAnswers) : (s.setAnswers v).r = s.r := rfl
@[simp] theorem State.setAnswers_p (v : TokenAnswers) : (s.setAnswers v).p = s.p := rfl
@[simp] theorem State.setAnswers_i (v : TokenAnswers) : (s.setAnswers v).i = s.i := rfl
@[simp] theorem State.setAnswers_ds (v : TokenAnswers) : (s.setAnswers v).ds = s.ds := rfl
@[simp] theorem State.setAnswers_rs (v : TokenAnswers) : (s.setAnswers v).rs = s.rs := rfl
@[simp] theorem State.setAnswers_execState (v : TokenAnswers) : (s.setAnswers v).execState = s.execState := rfl
@[simp] theorem State.setAnswers_slot (v : TokenAnswers) : (s.setAnswers v).slot = s.slot := rfl
@[simp] theorem State.setAnswers_mem (v : TokenAnswers) : (s.setAnswers v).mem = s.mem := rfl
@[simp] theorem State.setAnswers_devices (v : TokenAnswers) : (s.setAnswers v).devices = s.devices := rfl
@[simp] theorem State.setAnswers_answers (v : TokenAnswers) : (s.setAnswers v).answers = v := rfl
@[simp] theorem State.setAnswers_bus (v : TokenAnswers) : (s.setAnswers v).bus = s.bus := rfl

@[simp] theorem State.setBus_a (v : BusAccess) : (s.setBus v).a = s.a := rfl
@[simp] theorem State.setBus_d (v : BusAccess) : (s.setBus v).d = s.d := rfl
@[simp] theorem State.setBus_r (v : BusAccess) : (s.setBus v).r = s.r := rfl
@[simp] theorem State.setBus_p (v : BusAccess) : (s.setBus v).p = s.p := rfl
@[simp] theorem State.setBus_i (v : BusAccess) : (s.setBus v).i = s.i := rfl
@[simp] theorem State.setBus_ds (v : BusAccess) : (s.setBus v).ds = s.ds := rfl
@[simp] theorem State.setBus_rs (v : BusAccess) : (s.setBus v).rs = s.rs := rfl
@[simp] theorem State.setBus_execState (v : BusAccess) : (s.setBus v).execState = s.execState := rfl
@[simp] theorem State.setBus_slot (v : BusAccess) : (s.setBus v).slot = s.slot := rfl
@[simp] theorem State.setBus_mem (v : BusAccess) : (s.setBus v).mem = s.mem := rfl
@[simp] theorem State.setBus_devices (v : BusAccess) : (s.setBus v).devices = s.devices := rfl
@[simp] theorem State.setBus_answers (v : BusAccess) : (s.setBus v).answers = s.answers := rfl
@[simp] theorem State.setBus_bus (v : BusAccess) : (s.setBus v).bus = v := rfl

end Sys2Proof.Machine
end

