-- ==== Sys2Proof/Laws/Ops.lean ====
section
/-! SUPPORT. One lemma for each shared operation: the whole state it leaves, as an update of the state it starts from. -/

namespace Sys2Proof.Machine

theorem State.pushDS_eq (s : State) (v : Word) : s.pushDS v = { s with ds := s.ds.push v } := rfl

theorem State.popDSToD_eq (s : State) : s.popDSToD = { s with d := s.ds.top, ds := s.ds.popped } := rfl

theorem State.pushRS_eq (s : State) (v : Word) : s.pushRS v = { s with rs := s.rs.push v } := rfl

theorem State.popRSToR_eq (s : State) : s.popRSToR = { s with r := s.rs.top, rs := s.rs.popped } := rfl

theorem State.memWrite_eq (s : State) (a v : Word) : s.memWrite a v = { s with mem := s.writtenMem a v } := rfl

theorem State.answered_eq (s : State) (a : Word) :
    s.answered a = { s with devices := s.devices.afterRead a } := rfl

theorem State.loadD_eq (s : State) (a : Word) :
    s.loadD a = { s with d := s.memRead a, ds := s.ds.push s.d, devices := s.devices.afterRead a } := rfl

theorem State.advance_eq (s : State) (k : OpSlot) (acc : BusAccess) :
    s.advance k acc = { s with slot := nextSlot k, bus := acc } := rfl

theorem State.fetchWord_eq (s : State) (a : Word) :
    s.fetchWord a =
      { s with i := s.memRead a, p := a + 1, devices := s.devices.afterRead a, execState := .code, slot := .s0,
               bus := .fetchWord a } := rfl

@[simp] theorem TokenAnswers.next_cons (an : TokenAnswer) (ans : List TokenAnswer) (la : LaterAnswers) :
    (TokenAnswers.mk (an :: ans) la).next = an := rfl

@[simp] theorem TokenAnswers.rest_cons (an : TokenAnswer) (ans : List TokenAnswer) (la : LaterAnswers) :
    (TokenAnswers.mk (an :: ans) la).rest = ⟨ans, la⟩ := rfl

@[simp] theorem TokenAnswers.next_same (an : TokenAnswer) : (TokenAnswers.mk [] (.same an)).next = an := rfl

@[simp] theorem TokenAnswers.rest_same (an : TokenAnswer) :
    (TokenAnswers.mk [] (.same an)).rest = ⟨[], .same an⟩ := rfl

@[simp] theorem TokenAnswers.rest_free (n : Nat) :
    (TokenAnswers.mk [] (.free n)).rest = ⟨[], .free (n + 1)⟩ := rfl

theorem State.takeToken_eq (s : State) (a : Word) :
    s.takeToken a =
      { s with i := s.memRead a, p := a + 1, devices := s.devices.afterRead a, execState := .list, slot := .s0,
               bus := .fetchToken a } := rfl

theorem State.takeInjected_eq (s : State) (a token : Word) :
    s.takeInjected a token =
      { s with i := token, p := a, execState := .list, slot := .s0, bus := .fetchToken a } := rfl

/-- The two things a token fetch can do: with `hold` low the token comes from memory, with `hold` high the platform's
token is taken. -/
theorem State.fetchToken_cases (s : State) (a : Word) :
    (s.answers.next = .memory ∧ s.fetchToken a = (s.setAnswers s.answers.rest).takeToken a) ∨
    (∃ token, s.answers.next = .inject token ∧
      s.fetchToken a = (s.setAnswers s.answers.rest).takeInjected a token) := by
  unfold State.fetchToken
  match s.answers.next with
  | .memory => exact .inl ⟨rfl, rfl⟩
  | .inject token => exact .inr ⟨token, rfl, rfl⟩

theorem State.link_eq (s : State) : s.link = { s with r := s.p, rs := s.rs.push s.r } := rfl

theorem State.returnToCode_eq (s : State) :
    s.returnToCode =
      { s with r := s.rs.top, rs := s.rs.popped, i := s.memRead s.r, p := s.r + 1,
               devices := s.devices.afterRead s.r, execState := .code, slot := .s0, bus := .fetchWord s.r } := by
  simp only [State.returnToCode, State.fetchWord_eq, State.popRSToR_eq]

theorem State.jumpIf_eq (s : State) (taken : Bool) (t : PageAddr) :
    s.jumpIf taken t = s.fetchWord (if taken then pageTarget t s.p else s.p) := by
  cases taken <;> rfl

theorem State.callIf_eq (s : State) (taken : Bool) (t : PageAddr) :
    s.callIf taken t = if taken then s.link.fetchWord (pageTarget t s.p) else s.fetchWord s.p := rfl

theorem State.repeatIf_eq (s : State) (again : Bool) :
    s.repeatIf again = { s with slot := if again then .s0 else .s3, bus := .none } := rfl

/-- A token fetch touches nothing but I, P, the devices, `state`, `slot`, the platform's answers and the pins. -/
theorem State.fetchToken_frame (s : State) (a : Word) :
    (s.fetchToken a).a = s.a ∧ (s.fetchToken a).d = s.d ∧ (s.fetchToken a).r = s.r ∧ (s.fetchToken a).ds = s.ds ∧
      (s.fetchToken a).rs = s.rs ∧ (s.fetchToken a).mem = s.mem ∧ (s.fetchToken a).execState = .list ∧
      (s.fetchToken a).slot = .s0 ∧ (s.fetchToken a).bus = .fetchToken a := by
  rcases s.fetchToken_cases a with ⟨-, h⟩ | ⟨_, -, h⟩ <;>
    simp only [h, State.takeToken_eq, State.takeInjected_eq, State.setAnswers, and_self]

/-- `returnToList` is a token fetch at R followed by a pop of RS into R. -/
theorem State.returnToList_eq (s : State) :
    s.returnToList = { s.fetchToken s.r with r := s.rs.top, rs := s.rs.popped } := by
  have h := (s.fetchToken_frame s.r).2.2.2.2.1
  simp only [State.returnToList, State.popRSToR_eq, h]

end Sys2Proof.Machine
end

