-- ==== Sys2Proof/Laws/Exec.lean ====
section
/-! SUPPORT. One equation for each instruction: the whole state `exec` answers, as an update of the state before. Every
fetch is left as `fetchWord` or `fetchToken`, whose own lemmas say what they do. -/

namespace Sys2Proof.Machine

variable (s : State)

theorem exec_get (k : OpSlot) : exec (.get k) s =
    .next { s with a := s.r, d := s.a, ds := s.ds.push s.d, slot := nextSlot k, bus := .none } := rfl

theorem exec_pop (k : OpSlot) : exec (.pop k) s =
    .next { s with a := s.r, d := s.a, r := s.rs.top, ds := s.ds.push s.d, rs := s.rs.popped, slot := nextSlot k, bus := .none } := rfl

theorem exec_drop (k : OpSlot) : exec (.drop k) s =
    .next { s with a := s.d, d := s.ds.top, ds := s.ds.popped, slot := nextSlot k, bus := .none } := rfl

theorem exec_push (k : OpSlot) : exec (.push k) s =
    .next { s with a := s.d, d := s.ds.top, r := s.a, ds := s.ds.popped, rs := s.rs.push s.r, slot := nextSlot k, bus := .none } := rfl

theorem exec_lit (k : OpSlot) : exec (.lit k) s =
    .next { s with d := s.memRead s.p, p := s.p + 1, ds := s.ds.push s.d, slot := nextSlot k, devices := s.devices.afterRead s.p, bus := .read s.p } := rfl

theorem exec_ldri (k : OpSlot) : exec (.ldri k) s =
    .next { s with d := s.memRead s.r, r := s.r + 1, ds := s.ds.push s.d, slot := nextSlot k, devices := s.devices.afterRead s.r, bus := .read s.r } := rfl

theorem exec_lda (k : OpSlot) : exec (.lda k) s =
    .next { s with d := s.memRead s.a, ds := s.ds.push s.d, slot := nextSlot k, devices := s.devices.afterRead s.a, bus := .read s.a } := rfl

theorem exec_ldai (k : OpSlot) : exec (.ldai k) s =
    .next { s with a := s.a + 1, d := s.memRead s.a, ds := s.ds.push s.d, slot := nextSlot k, devices := s.devices.afterRead s.a, bus := .read s.a } := rfl

theorem exec_str (k : OpSlot) : exec (.str k) s =
    .next { s with d := s.ds.top, ds := s.ds.popped, mem := s.writtenMem s.r s.d, slot := nextSlot k, bus := .write s.r s.d } := rfl

theorem exec_stri (k : OpSlot) : exec (.stri k) s =
    .next { s with d := s.ds.top, r := s.r + 1, ds := s.ds.popped, mem := s.writtenMem s.r s.d, slot := nextSlot k, bus := .write s.r s.d } := rfl

theorem exec_sta (k : OpSlot) : exec (.sta k) s =
    .next { s with d := s.ds.top, ds := s.ds.popped, mem := s.writtenMem s.a s.d, slot := nextSlot k, bus := .write s.a s.d } := rfl

theorem exec_stai (k : OpSlot) : exec (.stai k) s =
    .next { s with a := s.a + 1, d := s.ds.top, ds := s.ds.popped, mem := s.writtenMem s.a s.d, slot := nextSlot k, bus := .write s.a s.d } := rfl

theorem exec_swap (k : OpSlot) : exec (.swap k) s =
    .next { s with a := s.d, d := s.a, slot := nextSlot k, bus := .none } := rfl

theorem exec_nop (k : OpSlot) : exec (.nop k) s =
    .next { s with slot := nextSlot k, bus := .none } := rfl

theorem exec_eqz (k : OpSlot) : exec (.eqz k) s =
    .next { s with a := zeroTest s.a, slot := nextSlot k, bus := .none } := rfl

theorem exec_inv (k : OpSlot) : exec (.inv k) s =
    .next { s with a := ~~~s.a, slot := nextSlot k, bus := .none } := rfl

theorem exec_add (k : OpSlot) : exec (.add k) s =
    .next { s with a := sumLow s.a s.d, d := sumCarry s.a s.d, slot := nextSlot k, bus := .none } := rfl

theorem exec_lsl (k : OpSlot) : exec (.lsl k) s =
    .next { s with a := lslLow s.a, d := lslHigh s.a s.d, slot := nextSlot k, bus := .none } := rfl

theorem exec_asr (k : OpSlot) : exec (.asr k) s =
    .next { s with a := shrLow s.a s.d, d := asrHigh s.d, slot := nextSlot k, bus := .none } := rfl

theorem exec_lsr (k : OpSlot) : exec (.lsr k) s =
    .next { s with a := shrLow s.a s.d, d := lsrHigh s.d, slot := nextSlot k, bus := .none } := rfl

theorem exec_overOp (k : OpSlot) : exec (.overOp k) s =
    .next { s with a := s.d, d := s.a, ds := s.ds.push s.d, slot := nextSlot k, bus := .none } := rfl

theorem exec_dup (k : OpSlot) : exec (.dup k) s =
    .next { s with d := s.a, ds := s.ds.push s.d, slot := nextSlot k, bus := .none } := rfl

theorem exec_zero (k : OpSlot) : exec (.zero k) s =
    .next { s with a := 0, d := s.a, ds := s.ds.push s.d, slot := nextSlot k, bus := .none } := rfl

theorem exec_one (k : OpSlot) : exec (.one k) s =
    .next { s with a := 1, d := s.a, ds := s.ds.push s.d, slot := nextSlot k, bus := .none } := rfl

theorem exec_nip (k : OpSlot) : exec (.nip k) s =
    .next { s with d := s.ds.top, ds := s.ds.popped, slot := nextSlot k, bus := .none } := rfl

theorem exec_or (k : OpSlot) : exec (.or k) s =
    .next { s with a := s.a ||| s.d, d := s.ds.top, ds := s.ds.popped, slot := nextSlot k, bus := .none } := rfl

theorem exec_xor (k : OpSlot) : exec (.xor k) s =
    .next { s with a := s.a ^^^ s.d, d := s.ds.top, ds := s.ds.popped, slot := nextSlot k, bus := .none } := rfl

theorem exec_and (k : OpSlot) : exec (.and k) s =
    .next { s with a := s.a &&& s.d, d := s.ds.top, ds := s.ds.popped, slot := nextSlot k, bus := .none } := rfl

theorem exec_jmp (t : PageAddr) : exec (.jmp t) s =
    .next (s.fetchWord (pageTarget t s.p)) := rfl

theorem exec_jmpp (t : PageAddr) : exec (.jmpp t) s =
    .next (s.fetchWord (if s.aPositive then pageTarget t s.p else s.p)) := congrArg _ (s.jumpIf_eq _ t)

theorem exec_jmpz (t : PageAddr) : exec (.jmpz t) s =
    .next (s.fetchWord (if s.aZero then pageTarget t s.p else s.p)) := congrArg _ (s.jumpIf_eq _ t)

theorem exec_jsr (t : PageAddr) : exec (.jsr t) s =
    .next (s.link.fetchWord (pageTarget t s.p)) := rfl

theorem exec_into : exec (.into) s =
    .next (s.fetchToken s.p) := rfl

theorem exec_exit : exec (.exit) s =
    .next { s.fetchToken s.r with r := s.rs.top, rs := s.rs.popped } := congrArg _ s.returnToList_eq

theorem exec_repp : exec (.repp) s =
    .next { s with slot := if s.aPositive then .s0 else .s3, bus := .none } := rfl

theorem exec_repz : exec (.repz) s =
    .next { s with slot := if s.aZero then .s0 else .s3, bus := .none } := rfl

theorem exec_nxt : exec (.nxt) s =
    .next (s.fetchWord s.p) := rfl

theorem exec_ret : exec (.ret) s =
    .next { s.fetchWord s.r with r := s.rs.top, rs := s.rs.popped } := rfl

theorem exec_tokExit : exec (.tokExit) s =
    .next { s.fetchToken s.r with r := s.rs.top, rs := s.rs.popped } := congrArg _ s.returnToList_eq

theorem exec_tokCall (a : Word) : exec (.tokCall a) s =
    .next (s.link.fetchWord a) := rfl

theorem exec_tokNest (a : Word) : exec (.tokNest a) s =
    .next (s.link.fetchToken a) := rfl

theorem exec_jsrn_taken (t : PageAddr) (h : s.rNonZero = true) : exec (.jsrn t) s =
    .next (s.link.fetchWord (pageTarget t s.p)) := by
  simp [exec, execJsrn, State.callIf_eq, h]

theorem exec_jsrn_not_taken (t : PageAddr) (h : s.rNonZero = false) : exec (.jsrn t) s =
    .next (s.fetchWord s.p) := by
  simp [exec, execJsrn, State.callIf_eq, h]

theorem exec_jsrp_taken (t : PageAddr) (h : s.aPositive = true) : exec (.jsrp t) s =
    .next (s.link.fetchWord (pageTarget t s.p)) := by
  simp [exec, execJsrp, State.callIf_eq, h]

theorem exec_jsrp_not_taken (t : PageAddr) (h : s.aPositive = false) : exec (.jsrp t) s =
    .next (s.fetchWord s.p) := by
  simp [exec, execJsrp, State.callIf_eq, h]

theorem exec_jsrz_taken (t : PageAddr) (h : s.aZero = true) : exec (.jsrz t) s =
    .next (s.link.fetchWord (pageTarget t s.p)) := by
  simp [exec, execJsrz, State.callIf_eq, h]

theorem exec_jsrz_not_taken (t : PageAddr) (h : s.aZero = false) : exec (.jsrz t) s =
    .next (s.fetchWord s.p) := by
  simp [exec, execJsrz, State.callIf_eq, h]

theorem exec_jmpd_taken (t : PageAddr) (h : s.rNonZero = true) : exec (.jmpd t) s =
    .next ((s.setR (s.r - 1)).fetchWord (pageTarget t s.p)) := by
  simp only [exec, execJmpd, h]; rfl

theorem exec_jmpd_not_taken (t : PageAddr) (h : s.rNonZero = false) : exec (.jmpd t) s =
    .next ({ s with r := s.rs.top, rs := s.rs.popped : State }.fetchWord s.p) := by
  simp only [exec, execJmpd, h]; rfl

theorem exec_repd_taken (h : s.rNonZero = true) : exec .repd s =
    .next { s with r := s.r - 1, slot := .s0, bus := .none } := by
  simp only [exec, execRepd, h]; rfl

theorem exec_repd_not_taken (h : s.rNonZero = false) : exec .repd s =
    .next { s with r := s.rs.top, rs := s.rs.popped, slot := .s3, bus := .none } := by
  simp only [exec, execRepd, h]; rfl

end Sys2Proof.Machine
end

