-- ==== Sys2Proof/Laws/Fetch.lean ====
section
/-! SUPPORT. What the two fetches leave, in the terms statements are written in. -/

namespace Sys2Proof.Machine

/-- A word fetch leaves what `fetchedWord` says. -/
theorem State.fetchWord_fetchedWord (s : State) (a : Word) : s.fetchedWord (s.fetchWord a) a := by
  simp only [State.fetchedWord, State.fetchWord_eq, and_self]

/-- A word fetch leaves the data stack, the return stack and plain memory alone. -/
theorem State.fetchWord_frame (s : State) (a : Word) :
    s.sameData (s.fetchWord a) ∧ (s.fetchWord a).r = s.r ∧ (s.fetchWord a).rs = s.rs := by
  simp only [State.sameData, State.sameWords, State.fetchWord_eq, implies_true, and_self]

/-- A token fetch leaves what `fetchedToken` says, with or without an injected token. -/
theorem State.fetchToken_fetchedToken (s : State) (a : Word) : s.fetchedToken (s.fetchToken a) a := by
  rcases s.fetchToken_cases a with ⟨h, e⟩ | ⟨_, h, e⟩ <;> rw [e] <;>
    simp [State.fetchedToken, State.held, h, State.takeToken_eq, State.takeInjected_eq, State.setAnswers,
      State.memRead]

/-- A token fetch leaves the data stack, the return stack and plain memory alone. -/
theorem State.fetchToken_data (s : State) (a : Word) :
    s.sameData (s.fetchToken a) ∧ (s.fetchToken a).r = s.r ∧ (s.fetchToken a).rs = s.rs := by
  obtain ⟨h1, h2, h3, h4, h5, h6, -⟩ := s.fetchToken_frame a
  exact ⟨⟨h1, h2, h4, fun b => by rw [h6]⟩, h3, h5⟩

end Sys2Proof.Machine
end

