-- ==== Sys2Proof/Laws/PerInstr.lean ====
section
/-! SUPPORT. The encoder against the opcode table: the family RowBits says of each instruction that its encoded word
matches its row's `mask` and `match` columns of spec/opcode_table.json. -/

namespace Sys2Proof.Laws

/-- The row of spec/opcode_table.json an instruction stands in: its `mask` and `match` columns. -/
def tableRow : Instr → Word × Word
  | .get .s0 => (0x7c00, 0x1000)
  | .get .s1 => (0x03e0, 0x0080)
  | .get .s2 => (0x001f, 0x0004)
  | .pop .s0 => (0x7c00, 0x1400)
  | .pop .s1 => (0x03e0, 0x00a0)
  | .pop .s2 => (0x001f, 0x0005)
  | .drop .s0 => (0x7c00, 0x1800)
  | .drop .s1 => (0x03e0, 0x00c0)
  | .drop .s2 => (0x001f, 0x0006)
  | .push .s0 => (0x7c00, 0x1c00)
  | .push .s1 => (0x03e0, 0x00e0)
  | .push .s2 => (0x001f, 0x0007)
  | .lit .s0 => (0x7c00, 0x2000)
  | .lit .s1 => (0x03e0, 0x0100)
  | .lit .s2 => (0x001f, 0x0008)
  | .ldri .s0 => (0x7c00, 0x2400)
  | .ldri .s1 => (0x03e0, 0x0120)
  | .ldri .s2 => (0x001f, 0x0009)
  | .lda .s0 => (0x7c00, 0x2800)
  | .lda .s1 => (0x03e0, 0x0140)
  | .lda .s2 => (0x001f, 0x000a)
  | .ldai .s0 => (0x7c00, 0x2c00)
  | .ldai .s1 => (0x03e0, 0x0160)
  | .ldai .s2 => (0x001f, 0x000b)
  | .str .s0 => (0x7c00, 0x3000)
  | .str .s1 => (0x03e0, 0x0180)
  | .str .s2 => (0x001f, 0x000c)
  | .stri .s0 => (0x7c00, 0x3400)
  | .stri .s1 => (0x03e0, 0x01a0)
  | .stri .s2 => (0x001f, 0x000d)
  | .sta .s0 => (0x7c00, 0x3800)
  | .sta .s1 => (0x03e0, 0x01c0)
  | .sta .s2 => (0x001f, 0x000e)
  | .stai .s0 => (0x7c00, 0x3c00)
  | .stai .s1 => (0x03e0, 0x01e0)
  | .stai .s2 => (0x001f, 0x000f)
  | .swap .s0 => (0x7c00, 0x4000)
  | .swap .s1 => (0x03e0, 0x0200)
  | .swap .s2 => (0x001f, 0x0010)
  | .nop .s0 => (0x7c00, 0x4400)
  | .nop .s1 => (0x03e0, 0x0220)
  | .nop .s2 => (0x001f, 0x0011)
  | .eqz .s0 => (0x7c00, 0x4800)
  | .eqz .s1 => (0x03e0, 0x0240)
  | .eqz .s2 => (0x001f, 0x0012)
  | .inv .s0 => (0x7c00, 0x4c00)
  | .inv .s1 => (0x03e0, 0x0260)
  | .inv .s2 => (0x001f, 0x0013)
  | .add .s0 => (0x7c00, 0x5000)
  | .add .s1 => (0x03e0, 0x0280)
  | .add .s2 => (0x001f, 0x0014)
  | .lsl .s0 => (0x7c00, 0x5400)
  | .lsl .s1 => (0x03e0, 0x02a0)
  | .lsl .s2 => (0x001f, 0x0015)
  | .asr .s0 => (0x7c00, 0x5800)
  | .asr .s1 => (0x03e0, 0x02c0)
  | .asr .s2 => (0x001f, 0x0016)
  | .lsr .s0 => (0x7c00, 0x5c00)
  | .lsr .s1 => (0x03e0, 0x02e0)
  | .lsr .s2 => (0x001f, 0x0017)
  | .overOp .s0 => (0x7c00, 0x6000)
  | .overOp .s1 => (0x03e0, 0x0300)
  | .overOp .s2 => (0x001f, 0x0018)
  | .dup .s0 => (0x7c00, 0x6400)
  | .dup .s1 => (0x03e0, 0x0320)
  | .dup .s2 => (0x001f, 0x0019)
  | .zero .s0 => (0x7c00, 0x6800)
  | .zero .s1 => (0x03e0, 0x0340)
  | .zero .s2 => (0x001f, 0x001a)
  | .one .s0 => (0x7c00, 0x6c00)
  | .one .s1 => (0x03e0, 0x0360)
  | .one .s2 => (0x001f, 0x001b)
  | .nip .s0 => (0x7c00, 0x7000)
  | .nip .s1 => (0x03e0, 0x0380)
  | .nip .s2 => (0x001f, 0x001c)
  | .or .s0 => (0x7c00, 0x7400)
  | .or .s1 => (0x03e0, 0x03a0)
  | .or .s2 => (0x001f, 0x001d)
  | .xor .s0 => (0x7c00, 0x7800)
  | .xor .s1 => (0x03e0, 0x03c0)
  | .xor .s2 => (0x001f, 0x001e)
  | .and .s0 => (0x7c00, 0x7c00)
  | .and .s1 => (0x03e0, 0x03e0)
  | .and .s2 => (0x001f, 0x001f)
  | .jmp (.slot0 _) => (0xfc00, 0x0000)
  | .jmp (.slot1 _) => (0x83e0, 0x0000)
  | .jmpd (.slot0 _) => (0xfc00, 0x0400)
  | .jmpd (.slot1 _) => (0x83e0, 0x0020)
  | .jmpp (.slot0 _) => (0xfc00, 0x0800)
  | .jmpp (.slot1 _) => (0x83e0, 0x0040)
  | .jmpz (.slot0 _) => (0xfc00, 0x0c00)
  | .jmpz (.slot1 _) => (0x83e0, 0x0060)
  | .jsr (.slot0 _) => (0xfc00, 0x8000)
  | .jsr (.slot1 _) => (0x83e0, 0x8000)
  | .jsrn (.slot0 _) => (0xfc00, 0x8400)
  | .jsrn (.slot1 _) => (0x83e0, 0x8020)
  | .jsrp (.slot0 _) => (0xfc00, 0x8800)
  | .jsrp (.slot1 _) => (0x83e0, 0x8040)
  | .jsrz (.slot0 _) => (0xfc00, 0x8c00)
  | .jsrz (.slot1 _) => (0x83e0, 0x8060)
  | .into => (0x801f, 0x0000)
  | .exit => (0x801f, 0x8000)
  | .repd => (0x001f, 0x0001)
  | .repp => (0x001f, 0x0002)
  | .repz => (0x001f, 0x0003)
  | .nxt => (0x8000, 0x0000)
  | .ret => (0x8000, 0x8000)
  | .tokExit => (0xffff, 0x0000)
  | .tokCall _ => (0x0001, 0x0000)
  | .tokNest _ => (0x0001, 0x0001)

namespace RowBits

/-- The encoded word of a well-formed instruction matches its row of the opcode table. -/
def Statement (i : Instr) : Prop := i.wf = true → encode i &&& (tableRow i).1 = (tableRow i).2

/-- The page address of a slot 0 jump stays outside the mask of its row. -/
theorem controlBits_slot0 (s3 : BitVec 1) (v : BitVec 5) (a : BitVec 10) :
    controlBits s3 v (.slot0 a) &&& 0xfc00 = controlBits s3 v (.slot0 0) := by
  have h : (0xfc00 : Word) = (63#6 ++ 0#10 : BitVec 16) := by decide
  show (s3 ++ v ++ a : BitVec 16) &&& 0xfc00 = (s3 ++ v ++ 0#10 : BitVec 16)
  rw [h]
  refine (BitVec.and_append (x₁ := s3 ++ v) (x₂ := 63#6) (y₁ := a) (y₂ := 0#10)).trans ?_
  congr 1
  · exact BitVec.and_allOnes
  · exact BitVec.and_zero

/-- The page address of a slot 1 jump stays outside the mask of its row. -/
theorem controlBits_slot1 (s3 : BitVec 1) (v : BitVec 5) (a : BitVec 5) :
    controlBits s3 v (.slot1 a) &&& 0x83e0 = controlBits s3 v (.slot1 0) := by
  have h : (0x83e0 : Word) = (1#1 ++ 0#5 ++ 31#5 ++ 0#5 : BitVec 16) := by decide
  show (s3 ++ 0#5 ++ v ++ a : BitVec 16) &&& 0x83e0 = (s3 ++ 0#5 ++ v ++ 0#5 : BitVec 16)
  rw [h]
  refine (BitVec.and_append (x₁ := s3 ++ 0#5 ++ v) (x₂ := 1#1 ++ 0#5 ++ 31#5) (y₁ := a) (y₂ := 0#5)).trans ?_
  congr 1
  · refine (BitVec.and_append (x₁ := s3 ++ 0#5) (x₂ := 1#1 ++ 0#5) (y₁ := v) (y₂ := 31#5)).trans ?_
    congr 1
    · refine (BitVec.and_append (x₁ := s3) (x₂ := 1#1) (y₁ := 0#5) (y₂ := 0#5)).trans ?_
      congr 1
      exact BitVec.and_allOnes
    · exact BitVec.and_allOnes
  · exact BitVec.and_zero

theorem get (k : OpSlot) : Statement (.get k) := fun _ => by cases k <;> rfl
theorem pop (k : OpSlot) : Statement (.pop k) := fun _ => by cases k <;> rfl
theorem drop (k : OpSlot) : Statement (.drop k) := fun _ => by cases k <;> rfl
theorem push (k : OpSlot) : Statement (.push k) := fun _ => by cases k <;> rfl
theorem lit (k : OpSlot) : Statement (.lit k) := fun _ => by cases k <;> rfl
theorem ldri (k : OpSlot) : Statement (.ldri k) := fun _ => by cases k <;> rfl
theorem lda (k : OpSlot) : Statement (.lda k) := fun _ => by cases k <;> rfl
theorem ldai (k : OpSlot) : Statement (.ldai k) := fun _ => by cases k <;> rfl
theorem str (k : OpSlot) : Statement (.str k) := fun _ => by cases k <;> rfl
theorem stri (k : OpSlot) : Statement (.stri k) := fun _ => by cases k <;> rfl
theorem sta (k : OpSlot) : Statement (.sta k) := fun _ => by cases k <;> rfl
theorem stai (k : OpSlot) : Statement (.stai k) := fun _ => by cases k <;> rfl
theorem swap (k : OpSlot) : Statement (.swap k) := fun _ => by cases k <;> rfl
theorem nop (k : OpSlot) : Statement (.nop k) := fun _ => by cases k <;> rfl
theorem eqz (k : OpSlot) : Statement (.eqz k) := fun _ => by cases k <;> rfl
theorem inv (k : OpSlot) : Statement (.inv k) := fun _ => by cases k <;> rfl
theorem add (k : OpSlot) : Statement (.add k) := fun _ => by cases k <;> rfl
theorem lsl (k : OpSlot) : Statement (.lsl k) := fun _ => by cases k <;> rfl
theorem asr (k : OpSlot) : Statement (.asr k) := fun _ => by cases k <;> rfl
theorem lsr (k : OpSlot) : Statement (.lsr k) := fun _ => by cases k <;> rfl
theorem overOp (k : OpSlot) : Statement (.overOp k) := fun _ => by cases k <;> rfl
theorem dup (k : OpSlot) : Statement (.dup k) := fun _ => by cases k <;> rfl
theorem zero (k : OpSlot) : Statement (.zero k) := fun _ => by cases k <;> rfl
theorem one (k : OpSlot) : Statement (.one k) := fun _ => by cases k <;> rfl
theorem nip (k : OpSlot) : Statement (.nip k) := fun _ => by cases k <;> rfl
theorem or (k : OpSlot) : Statement (.or k) := fun _ => by cases k <;> rfl
theorem xor (k : OpSlot) : Statement (.xor k) := fun _ => by cases k <;> rfl
theorem and (k : OpSlot) : Statement (.and k) := fun _ => by cases k <;> rfl
theorem jmp (t : PageAddr) : Statement (.jmp t) := fun _ => by
  cases t with
  | slot0 a => exact controlBits_slot0 _ _ a
  | slot1 a => exact controlBits_slot1 _ _ a
theorem jmpd (t : PageAddr) : Statement (.jmpd t) := fun _ => by
  cases t with
  | slot0 a => exact controlBits_slot0 _ _ a
  | slot1 a => exact controlBits_slot1 _ _ a
theorem jmpp (t : PageAddr) : Statement (.jmpp t) := fun _ => by
  cases t with
  | slot0 a => exact controlBits_slot0 _ _ a
  | slot1 a => exact controlBits_slot1 _ _ a
theorem jmpz (t : PageAddr) : Statement (.jmpz t) := fun _ => by
  cases t with
  | slot0 a => exact controlBits_slot0 _ _ a
  | slot1 a => exact controlBits_slot1 _ _ a
theorem jsr (t : PageAddr) : Statement (.jsr t) := fun _ => by
  cases t with
  | slot0 a => exact controlBits_slot0 _ _ a
  | slot1 a => exact controlBits_slot1 _ _ a
theorem jsrn (t : PageAddr) : Statement (.jsrn t) := fun _ => by
  cases t with
  | slot0 a => exact controlBits_slot0 _ _ a
  | slot1 a => exact controlBits_slot1 _ _ a
theorem jsrp (t : PageAddr) : Statement (.jsrp t) := fun _ => by
  cases t with
  | slot0 a => exact controlBits_slot0 _ _ a
  | slot1 a => exact controlBits_slot1 _ _ a
theorem jsrz (t : PageAddr) : Statement (.jsrz t) := fun _ => by
  cases t with
  | slot0 a => exact controlBits_slot0 _ _ a
  | slot1 a => exact controlBits_slot1 _ _ a
theorem into : Statement .into := fun _ => rfl
theorem exit : Statement .exit := fun _ => rfl
theorem repd : Statement .repd := fun _ => rfl
theorem repp : Statement .repp := fun _ => rfl
theorem repz : Statement .repz := fun _ => rfl
theorem nxt : Statement .nxt := fun _ => rfl
theorem ret : Statement .ret := fun _ => rfl
theorem tokExit : Statement .tokExit := fun _ => rfl
theorem tokCall (a : Word) : Statement (.tokCall a) := fun h => by
  simp only [Instr.wf, codeTokenOk, Bool.and_eq_true, Bool.not_eq_true'] at h
  ext j hj
  by_cases hj0 : j = 0
  · subst hj0; simpa [encode, tableRow, BitVec.getLsbD_eq_getElem] using h.2
  · simp [encode, tableRow, hj0]
theorem tokNest (a : Word) : Statement (.tokNest a) := fun h => by
  simp only [Instr.wf, listTokenOk] at h
  ext j hj
  by_cases hj0 : j = 0
  · subst hj0; simpa [encode, tableRow, BitVec.getLsbD_eq_getElem] using h
  · simp [encode, tableRow, hj0]

end RowBits

end Sys2Proof.Laws
end

