-- ==== Sys2Proof/Tests/Slice0.lean ====
section
/-! SUPPORT. The model's own tests. Every expected value is from spec/95_test_vectors.md (a test names its vector) or
from the encoding tables of spec/30_encoding.md, written out bit by bit; none is read off the model. -/

namespace Sys2Proof.Tests

open Sys2Proof Sys2Proof.Machine

/-! ## Helpers -/

/-- The stack whose list view, newest first, is the given list (95_test_vectors.md 2). -/
def ofList (l : List Word) : Stack := ⟨l.reverse, l.length - 1⟩

/-- The memory of the standard example state. -/
def standardMem : Memory := Memory.mk []
  |>.writeWord 0x1234 0xbeef |>.writeWord 0x9abc 0xcafe |>.writeWord 0x0100 0xf00d

/-- The standard example state of 95_test_vectors.md 2, at slot 0 of the word `nop nop nop ; nxt`. -/
def standard : State where
  a := 0x1234
  d := 0x5678
  r := 0x9abc
  p := 0x0100
  i := 0x4631
  ds := ofList [0x00d0, 0x00d1, 0x00d2, 0x00d3]
  rs := ofList [0x00e0, 0x00e1, 0x00e2, 0x00e3]
  execState := .code
  slot := .s0
  mem := standardMem
  devices := ⟨[], [], 0⟩
  answers := ⟨[], .same .memory⟩
  bus := .none

/-- The standard state with its data stack held at another index. -/
def turned : State := { standard with ds := ⟨[0x00d0, 0x00d3, 0x00d2, 0x00d1], 0⟩ }

/-- The state after V-INT-4: the injected token 0x0040 is in I and P is held at the displaced token. -/
def interrupted : State :=
  { standard with p := 0x0021, i := 0x0040, r := 0x0003, rs := ofList [0x9abc, 0x00e0, 0x00e1, 0x00e2],
                  execState := .list }

/-- The same after a handler that gave R and RS back. -/
def handlerDone : State := { interrupted with r := 0x0021, rs := ofList [0x0003, 0x9abc, 0x00e0, 0x00e1] }

/-- A platform that holds `hold` high for ever with the token 0x0040. -/
def stuckLine : TokenAnswers := ⟨[], .same (.inject 0x0040)⟩

/-- The standard state with a device at 0x8000 to 0x8001 that returns 1 and then 2. -/
def withDevice : State := { standard with a := 0x8000, devices := ⟨[⟨0x8000, 0x8001⟩], [1, 2], 0⟩ }

/-- A, D, R, P and I, the two stacks newest first, `state` and `slot`. -/
def seen : Host.Outcome State Fault Refusal → Option (List Word × List Word × List Word × ExecState × Slot)
  | .next t => some ([t.a, t.d, t.r, t.p, t.i], t.ds.toList, t.rs.toList, t.execState, t.slot)
  | _ => none

/-- The word at an address afterwards. -/
def wordAfter : Host.Outcome State Fault Refusal → Word → Option Word
  | .next t, a => some (t.memRead a)
  | _, _ => none

/-! ## Decoding -/

/-- Words of 95_test_vectors.md 3.1, rows 1 to 10, as instruction words. -/
theorem test_words_1 :
    decodeWord 0b0_00000_00000_00000 = [.jmp (.slot0 0x000)] ∧
    decodeWord 0b1_11111_11111_11111 = [.and .s0, .and .s1, .and .s2, .ret] ∧
    decodeWord 0b0_10001_10001_10001 = [.nop .s0, .nop .s1, .nop .s2, .nxt] ∧
    decodeWord 0b1_10001_10001_10001 = [.nop .s0, .nop .s1, .nop .s2, .ret] ∧
    decodeWord 0b0_00000_11111_11111 = [.jmp (.slot0 0x3ff)] ∧
    decodeWord 0b0_00001_00000_00011 = [.jmpd (.slot0 0x003)] ∧
    decodeWord 0b0_10001_00000_00111 = [.nop .s0, .jmp (.slot1 0x07)] ∧
    decodeWord 0b1_10001_00000_10000 = [.nop .s0, .jsr (.slot1 0x10)] ∧
    decodeWord 0b1_00000_00000_10000 = [.jsr (.slot0 0x010)] ∧
    decodeWord 0b1_00001_00000_10000 = [.jsrn (.slot0 0x010)] := by decide

/-- Words of 95_test_vectors.md 3.1, rows 11 to 20, as instruction words. -/
theorem test_words_11 :
    decodeWord 0b1_00010_00000_10000 = [.jsrp (.slot0 0x010)] ∧
    decodeWord 0b1_00011_00000_10000 = [.jsrz (.slot0 0x010)] ∧
    decodeWord 0b0_00010_00000_00101 = [.jmpp (.slot0 0x005)] ∧
    decodeWord 0b0_00011_00000_00101 = [.jmpz (.slot0 0x005)] ∧
    decodeWord 0b0_10001_10001_00000 = [.nop .s0, .nop .s1, .into] ∧
    decodeWord 0b1_10001_10001_00000 = [.nop .s0, .nop .s1, .exit] ∧
    decodeWord 0b1_11011_10001_00000 = [.one .s0, .nop .s1, .exit] ∧
    decodeWord 0b1_10100_10001_00000 = [.add .s0, .nop .s1, .exit] ∧
    decodeWord 0b0_11001_01111_00001 = [.dup .s0, .stai .s1, .repd, .nxt] ∧
    decodeWord 0b0_10101_10001_00010 = [.lsl .s0, .nop .s1, .repp, .nxt] := by decide

/-- Words of 95_test_vectors.md 3.1, rows 21 to 30, as instruction words. -/
theorem test_words_21 :
    decodeWord 0b0_11110_10001_00011 = [.xor .s0, .nop .s1, .repz, .nxt] ∧
    decodeWord 0b1_11001_01111_00001 = [.dup .s0, .stai .s1, .repd, .ret] ∧
    decodeWord 0b0_01000_10000_01000 = [.lit .s0, .swap .s1, .lit .s2, .nxt] ∧
    decodeWord 0b0_01000_10000_00111 = [.lit .s0, .swap .s1, .push .s2, .nxt] ∧
    decodeWord 0b0_01000_00110_10001 = [.lit .s0, .drop .s1, .nop .s2, .nxt] ∧
    decodeWord 0b0_10100_01000_10000 = [.add .s0, .lit .s1, .swap .s2, .nxt] ∧
    decodeWord 0b0_01110_10001_10001 = [.sta .s0, .nop .s1, .nop .s2, .nxt] ∧
    decodeWord 0b0_01000_10000_01110 = [.lit .s0, .swap .s1, .sta .s2, .nxt] ∧
    decodeWord 0b1_11001_10100_11100 = [.dup .s0, .add .s1, .nip .s2, .ret] ∧
    decodeWord 0b1_01000_10000_00111 = [.lit .s0, .swap .s1, .push .s2, .ret] := by decide

/-- Words of 95_test_vectors.md 3.1, rows 31 to 40, as instruction words. -/
theorem test_words_31 :
    decodeWord 0b0_11010_01000_10000 = [.zero .s0, .lit .s1, .swap .s2, .nxt] ∧
    decodeWord 0b0_00111_10001_10001 = [.push .s0, .nop .s1, .nop .s2, .nxt] ∧
    decodeWord 0b0_00100_10100_11100 = [.get .s0, .add .s1, .nip .s2, .nxt] ∧
    decodeWord 0b1_01110_00110_00000 = [.sta .s0, .drop .s1, .exit] ∧
    decodeWord 0b0_00000_00000_10000 = [.jmp (.slot0 0x010)] ∧
    decodeWord 0b0_00000_00001_00001 = [.jmp (.slot0 0x021)] ∧
    decodeWord 0b0_00000_00000_10010 = [.jmp (.slot0 0x012)] ∧
    decodeWord 0b0_00000_00001_10000 = [.jmp (.slot0 0x030)] ∧
    decodeWord 0b0_11111_11111_11111 = [.and .s0, .and .s1, .and .s2, .nxt] ∧
    decodeWord 0b1_00000_00000_00000 = [.jsr (.slot0 0x000)] := by decide

/-- The same words read as tokens: one for each kind, the first and last of each range. -/
theorem test_tokens :
    decode .list 0x0000 = .tokExit ∧
    decode .list 0xffff = .tokNest 0xffff ∧
    decode .list 0xc410 = .tokCall 0xc410 ∧
    decode .list 0x0010 = .tokCall 0x0010 ∧
    decode .list 0x0021 = .tokNest 0x0021 ∧
    decode .list 0x7fff = .tokNest 0x7fff ∧
    decode .list 0x8000 = .tokCall 0x8000 ∧
    decode .list 0x0001 = .tokNest 0x0001 ∧ decode .list 0x0002 = .tokCall 0x0002 ∧
    decode .list 0xfffe = .tokCall 0xfffe := by decide

/-- The move group in each slot (R80, R95). -/
theorem test_decode_move :
    decode (.code .s0) 0b0_00100_00000_00000 = .get .s0 ∧
    decode (.code .s1) 0b0_10001_00100_00000 = .get .s1 ∧
    decode (.code .s2) 0b1_10001_10001_00100 = .get .s2 ∧
    decode (.code .s0) 0b0_00101_00000_00000 = .pop .s0 ∧
    decode (.code .s1) 0b0_10001_00101_00000 = .pop .s1 ∧
    decode (.code .s2) 0b1_10001_10001_00101 = .pop .s2 ∧
    decode (.code .s0) 0b0_00110_00000_00000 = .drop .s0 ∧
    decode (.code .s1) 0b0_10001_00110_00000 = .drop .s1 ∧
    decode (.code .s2) 0b1_10001_10001_00110 = .drop .s2 ∧
    decode (.code .s0) 0b0_00111_00000_00000 = .push .s0 ∧
    decode (.code .s1) 0b0_10001_00111_00000 = .push .s1 ∧
    decode (.code .s2) 0b1_10001_10001_00111 = .push .s2 := by decide

/-- The memory group in each slot (R80, R95). -/
theorem test_decode_memory :
    decode (.code .s0) 0b0_01000_00000_00000 = .lit .s0 ∧
    decode (.code .s1) 0b0_10001_01000_00000 = .lit .s1 ∧
    decode (.code .s2) 0b1_10001_10001_01000 = .lit .s2 ∧
    decode (.code .s0) 0b0_01001_00000_00000 = .ldri .s0 ∧
    decode (.code .s1) 0b0_10001_01001_00000 = .ldri .s1 ∧
    decode (.code .s2) 0b1_10001_10001_01001 = .ldri .s2 ∧
    decode (.code .s0) 0b0_01010_00000_00000 = .lda .s0 ∧
    decode (.code .s1) 0b0_10001_01010_00000 = .lda .s1 ∧
    decode (.code .s2) 0b1_10001_10001_01010 = .lda .s2 ∧
    decode (.code .s0) 0b0_01011_00000_00000 = .ldai .s0 ∧
    decode (.code .s1) 0b0_10001_01011_00000 = .ldai .s1 ∧
    decode (.code .s2) 0b1_10001_10001_01011 = .ldai .s2 ∧
    decode (.code .s0) 0b0_01100_00000_00000 = .str .s0 ∧
    decode (.code .s1) 0b0_10001_01100_00000 = .str .s1 ∧
    decode (.code .s2) 0b1_10001_10001_01100 = .str .s2 ∧
    decode (.code .s0) 0b0_01101_00000_00000 = .stri .s0 ∧
    decode (.code .s1) 0b0_10001_01101_00000 = .stri .s1 ∧
    decode (.code .s2) 0b1_10001_10001_01101 = .stri .s2 ∧
    decode (.code .s0) 0b0_01110_00000_00000 = .sta .s0 ∧
    decode (.code .s1) 0b0_10001_01110_00000 = .sta .s1 ∧
    decode (.code .s2) 0b1_10001_10001_01110 = .sta .s2 ∧
    decode (.code .s0) 0b0_01111_00000_00000 = .stai .s0 ∧
    decode (.code .s1) 0b0_10001_01111_00000 = .stai .s1 ∧
    decode (.code .s2) 0b1_10001_10001_01111 = .stai .s2 := by decide

/-- The first half of the ALU group in each slot (R80, R95). -/
theorem test_decode_alu_low :
    decode (.code .s0) 0b0_10000_00000_00000 = .swap .s0 ∧
    decode (.code .s1) 0b0_10001_10000_00000 = .swap .s1 ∧
    decode (.code .s2) 0b1_10001_10001_10000 = .swap .s2 ∧
    decode (.code .s0) 0b0_10001_00000_00000 = .nop .s0 ∧
    decode (.code .s1) 0b0_10001_10001_00000 = .nop .s1 ∧
    decode (.code .s2) 0b1_10001_10001_10001 = .nop .s2 ∧
    decode (.code .s0) 0b0_10010_00000_00000 = .eqz .s0 ∧
    decode (.code .s1) 0b0_10001_10010_00000 = .eqz .s1 ∧
    decode (.code .s2) 0b1_10001_10001_10010 = .eqz .s2 ∧
    decode (.code .s0) 0b0_10011_00000_00000 = .inv .s0 ∧
    decode (.code .s1) 0b0_10001_10011_00000 = .inv .s1 ∧
    decode (.code .s2) 0b1_10001_10001_10011 = .inv .s2 ∧
    decode (.code .s0) 0b0_10100_00000_00000 = .add .s0 ∧
    decode (.code .s1) 0b0_10001_10100_00000 = .add .s1 ∧
    decode (.code .s2) 0b1_10001_10001_10100 = .add .s2 ∧
    decode (.code .s0) 0b0_10101_00000_00000 = .lsl .s0 ∧
    decode (.code .s1) 0b0_10001_10101_00000 = .lsl .s1 ∧
    decode (.code .s2) 0b1_10001_10001_10101 = .lsl .s2 ∧
    decode (.code .s0) 0b0_10110_00000_00000 = .asr .s0 ∧
    decode (.code .s1) 0b0_10001_10110_00000 = .asr .s1 ∧
    decode (.code .s2) 0b1_10001_10001_10110 = .asr .s2 ∧
    decode (.code .s0) 0b0_10111_00000_00000 = .lsr .s0 ∧
    decode (.code .s1) 0b0_10001_10111_00000 = .lsr .s1 ∧
    decode (.code .s2) 0b1_10001_10001_10111 = .lsr .s2 := by decide

/-- The second half of the ALU group in each slot (R80, R95). -/
theorem test_decode_alu_high :
    decode (.code .s0) 0b0_11000_00000_00000 = .overOp .s0 ∧
    decode (.code .s1) 0b0_10001_11000_00000 = .overOp .s1 ∧
    decode (.code .s2) 0b1_10001_10001_11000 = .overOp .s2 ∧
    decode (.code .s0) 0b0_11001_00000_00000 = .dup .s0 ∧
    decode (.code .s1) 0b0_10001_11001_00000 = .dup .s1 ∧
    decode (.code .s2) 0b1_10001_10001_11001 = .dup .s2 ∧
    decode (.code .s0) 0b0_11010_00000_00000 = .zero .s0 ∧
    decode (.code .s1) 0b0_10001_11010_00000 = .zero .s1 ∧
    decode (.code .s2) 0b1_10001_10001_11010 = .zero .s2 ∧
    decode (.code .s0) 0b0_11011_00000_00000 = .one .s0 ∧
    decode (.code .s1) 0b0_10001_11011_00000 = .one .s1 ∧
    decode (.code .s2) 0b1_10001_10001_11011 = .one .s2 ∧
    decode (.code .s0) 0b0_11100_00000_00000 = .nip .s0 ∧
    decode (.code .s1) 0b0_10001_11100_00000 = .nip .s1 ∧
    decode (.code .s2) 0b1_10001_10001_11100 = .nip .s2 ∧
    decode (.code .s0) 0b0_11101_00000_00000 = .or .s0 ∧
    decode (.code .s1) 0b0_10001_11101_00000 = .or .s1 ∧
    decode (.code .s2) 0b1_10001_10001_11101 = .or .s2 ∧
    decode (.code .s0) 0b0_11110_00000_00000 = .xor .s0 ∧
    decode (.code .s1) 0b0_10001_11110_00000 = .xor .s1 ∧
    decode (.code .s2) 0b1_10001_10001_11110 = .xor .s2 ∧
    decode (.code .s0) 0b0_11111_00000_00000 = .and .s0 ∧
    decode (.code .s1) 0b0_10001_11111_00000 = .and .s1 ∧
    decode (.code .s2) 0b1_10001_10001_11111 = .and .s2 := by decide

/-- Jumps and calls in slots 0 and 1, by bit 15, with their page address (R84, R85, R95). -/
theorem test_decode_jumps :
    decode (.code .s0) 0b0_00000_11111_00001 = .jmp (.slot0 0x3e1) ∧
    decode (.code .s1) 0b0_10001_00000_10011 = .jmp (.slot1 0x13) ∧
    decode (.code .s0) 0b0_00001_11111_00001 = .jmpd (.slot0 0x3e1) ∧
    decode (.code .s1) 0b0_10001_00001_10011 = .jmpd (.slot1 0x13) ∧
    decode (.code .s0) 0b0_00010_11111_00001 = .jmpp (.slot0 0x3e1) ∧
    decode (.code .s1) 0b0_10001_00010_10011 = .jmpp (.slot1 0x13) ∧
    decode (.code .s0) 0b0_00011_11111_00001 = .jmpz (.slot0 0x3e1) ∧
    decode (.code .s1) 0b0_10001_00011_10011 = .jmpz (.slot1 0x13) ∧
    decode (.code .s0) 0b1_00000_11111_00001 = .jsr (.slot0 0x3e1) ∧
    decode (.code .s1) 0b1_10001_00000_10011 = .jsr (.slot1 0x13) ∧
    decode (.code .s0) 0b1_00001_11111_00001 = .jsrn (.slot0 0x3e1) ∧
    decode (.code .s1) 0b1_10001_00001_10011 = .jsrn (.slot1 0x13) ∧
    decode (.code .s0) 0b1_00010_11111_00001 = .jsrp (.slot0 0x3e1) ∧
    decode (.code .s1) 0b1_10001_00010_10011 = .jsrp (.slot1 0x13) ∧
    decode (.code .s0) 0b1_00011_11111_00001 = .jsrz (.slot0 0x3e1) ∧
    decode (.code .s1) 0b1_10001_00011_10011 = .jsrz (.slot1 0x13) := by decide

/-- The control group in slot 2 and the two actions of slot 3 (R84, R91, R95). -/
theorem test_decode_slots_2_and_3 :
    decode (.code .s2) 0b0_10001_10001_00000 = .into ∧ decode (.code .s2) 0b1_10001_10001_00000 = .exit ∧
    decode (.code .s2) 0b0_10001_10001_00001 = .repd ∧ decode (.code .s2) 0b1_10001_10001_00001 = .repd ∧
    decode (.code .s2) 0b0_10001_10001_00010 = .repp ∧ decode (.code .s2) 0b1_10001_10001_00010 = .repp ∧
    decode (.code .s2) 0b0_10001_10001_00011 = .repz ∧ decode (.code .s2) 0b1_10001_10001_00011 = .repz ∧
    decode (.code .s3) 0b0_10001_10001_10001 = .nxt ∧ decode (.code .s3) 0b1_10001_10001_10001 = .ret := by decide

/-! ## Move group -/

/-- V-MOV-1: `get`. -/
theorem test_mov_1_get :
    seen (exec (.get .s0) standard) =
      some ([0x9abc, 0x1234, 0x9abc, 0x0100, 0x4631],
        [0x5678, 0x00d0, 0x00d1, 0x00d2], [0x00e0, 0x00e1, 0x00e2, 0x00e3], .code, .s1) := by decide

/-- V-MOV-7: `get`. -/
theorem test_mov_7_get :
    seen (exec (.get .s2) { standard with r := 0x0000 }) =
      some ([0x0000, 0x1234, 0x0000, 0x0100, 0x4631],
        [0x5678, 0x00d0, 0x00d1, 0x00d2], [0x00e0, 0x00e1, 0x00e2, 0x00e3], .code, .s3) := by decide

/-- V-MOV-2: `pop`. -/
theorem test_mov_2_pop :
    seen (exec (.pop .s0) standard) =
      some ([0x9abc, 0x1234, 0x00e0, 0x0100, 0x4631],
        [0x5678, 0x00d0, 0x00d1, 0x00d2], [0x00e1, 0x00e2, 0x00e3, 0x00e0], .code, .s1) := by decide

/-- V-MOV-6: `pop`. -/
theorem test_mov_6_pop :
    seen (exec (.pop .s1) { standard with
      a := 0x5678, d := 0x00d0, r := 0x1234, ds := ofList [0x00d1, 0x00d2, 0x00d3, 0x00d0],
      rs := ofList [0x9abc, 0x00e0, 0x00e1, 0x00e2] }) =
      some ([0x1234, 0x5678, 0x9abc, 0x0100, 0x4631],
        [0x00d0, 0x00d1, 0x00d2, 0x00d3], [0x00e0, 0x00e1, 0x00e2, 0x9abc], .code, .s2) := by decide

/-- V-MOV-3: `drop`. -/
theorem test_mov_3_drop :
    seen (exec (.drop .s2) standard) =
      some ([0x5678, 0x00d0, 0x9abc, 0x0100, 0x4631],
        [0x00d1, 0x00d2, 0x00d3, 0x00d0], [0x00e0, 0x00e1, 0x00e2, 0x00e3], .code, .s3) := by decide

/-- V-MOV-4: `push`. -/
theorem test_mov_4_push :
    seen (exec (.push .s0) standard) =
      some ([0x5678, 0x00d0, 0x1234, 0x0100, 0x4631],
        [0x00d1, 0x00d2, 0x00d3, 0x00d0], [0x9abc, 0x00e0, 0x00e1, 0x00e2], .code, .s1) := by decide

/-! ## Memory group -/

/-- V-MEM-1: `lit`. -/
theorem test_mem_1_lit :
    seen (exec (.lit .s0) standard) =
      some ([0x1234, 0xf00d, 0x9abc, 0x0101, 0x4631],
        [0x5678, 0x00d0, 0x00d1, 0x00d2], [0x00e0, 0x00e1, 0x00e2, 0x00e3], .code, .s1) := by decide

/-- V-MEM-9: `lit`. -/
theorem test_mem_9_lit :
    seen (exec (.lit .s2) { standard with p := 0xffff, mem := standardMem |>.writeWord 0xffff 0x00aa }) =
      some ([0x1234, 0x00aa, 0x9abc, 0x0000, 0x4631],
        [0x5678, 0x00d0, 0x00d1, 0x00d2], [0x00e0, 0x00e1, 0x00e2, 0x00e3], .code, .s3) := by decide

/-- V-MEM-2: `ldri`. -/
theorem test_mem_2_ldri :
    seen (exec (.ldri .s1) standard) =
      some ([0x1234, 0xcafe, 0x9abd, 0x0100, 0x4631],
        [0x5678, 0x00d0, 0x00d1, 0x00d2], [0x00e0, 0x00e1, 0x00e2, 0x00e3], .code, .s2) := by decide

/-- V-MEM-10: `ldri`. -/
theorem test_mem_10_ldri :
    seen (exec (.ldri .s0) { standard with r := 0xffff, mem := standardMem |>.writeWord 0xffff 0x00aa }) =
      some ([0x1234, 0x00aa, 0x0000, 0x0100, 0x4631],
        [0x5678, 0x00d0, 0x00d1, 0x00d2], [0x00e0, 0x00e1, 0x00e2, 0x00e3], .code, .s1) := by decide

/-- V-MEM-3: `lda`. -/
theorem test_mem_3_lda :
    seen (exec (.lda .s0) standard) =
      some ([0x1234, 0xbeef, 0x9abc, 0x0100, 0x4631],
        [0x5678, 0x00d0, 0x00d1, 0x00d2], [0x00e0, 0x00e1, 0x00e2, 0x00e3], .code, .s1) := by decide

/-- V-MEM-15: `lda`. -/
theorem test_mem_15_lda :
    seen (exec (.lda .s2) { standard with a := 0x0100 }) =
      some ([0x0100, 0xf00d, 0x9abc, 0x0100, 0x4631],
        [0x5678, 0x00d0, 0x00d1, 0x00d2], [0x00e0, 0x00e1, 0x00e2, 0x00e3], .code, .s3) := by decide

/-- V-MEM-4: `ldai`. -/
theorem test_mem_4_ldai :
    seen (exec (.ldai .s0) standard) =
      some ([0x1235, 0xbeef, 0x9abc, 0x0100, 0x4631],
        [0x5678, 0x00d0, 0x00d1, 0x00d2], [0x00e0, 0x00e1, 0x00e2, 0x00e3], .code, .s1) := by decide

/-- V-MEM-11: `ldai`. -/
theorem test_mem_11_ldai :
    seen (exec (.ldai .s1) { standard with a := 0xffff, mem := standardMem |>.writeWord 0xffff 0x00aa }) =
      some ([0x0000, 0x00aa, 0x9abc, 0x0100, 0x4631],
        [0x5678, 0x00d0, 0x00d1, 0x00d2], [0x00e0, 0x00e1, 0x00e2, 0x00e3], .code, .s2) := by decide

/-- V-MEM-5: `str`. -/
theorem test_mem_5_str :
    seen (exec (.str .s2) standard) =
      some ([0x1234, 0x00d0, 0x9abc, 0x0100, 0x4631],
        [0x00d1, 0x00d2, 0x00d3, 0x00d0], [0x00e0, 0x00e1, 0x00e2, 0x00e3], .code, .s3) ∧
    wordAfter (exec (.str .s2) standard) 0x9abc = some 0x5678 := by decide

/-- V-MEM-6: `stri`. -/
theorem test_mem_6_stri :
    seen (exec (.stri .s0) standard) =
      some ([0x1234, 0x00d0, 0x9abd, 0x0100, 0x4631],
        [0x00d1, 0x00d2, 0x00d3, 0x00d0], [0x00e0, 0x00e1, 0x00e2, 0x00e3], .code, .s1) ∧
    wordAfter (exec (.stri .s0) standard) 0x9abc = some 0x5678 := by decide

/-- V-MEM-12: `stri`. -/
theorem test_mem_12_stri :
    seen (exec (.stri .s1) { standard with r := 0xffff }) =
      some ([0x1234, 0x00d0, 0x0000, 0x0100, 0x4631],
        [0x00d1, 0x00d2, 0x00d3, 0x00d0], [0x00e0, 0x00e1, 0x00e2, 0x00e3], .code, .s2) ∧
    wordAfter (exec (.stri .s1) { standard with r := 0xffff }) 0xffff = some 0x5678 := by decide

/-- V-MEM-7: `sta`. -/
theorem test_mem_7_sta :
    seen (exec (.sta .s0) standard) =
      some ([0x1234, 0x00d0, 0x9abc, 0x0100, 0x4631],
        [0x00d1, 0x00d2, 0x00d3, 0x00d0], [0x00e0, 0x00e1, 0x00e2, 0x00e3], .code, .s1) ∧
    wordAfter (exec (.sta .s0) standard) 0x1234 = some 0x5678 := by decide

/-- V-MEM-14: `sta`. -/
theorem test_mem_14_sta :
    seen (exec (.sta .s2) { standard with a := 0x0000 }) =
      some ([0x0000, 0x00d0, 0x9abc, 0x0100, 0x4631],
        [0x00d1, 0x00d2, 0x00d3, 0x00d0], [0x00e0, 0x00e1, 0x00e2, 0x00e3], .code, .s3) ∧
    wordAfter (exec (.sta .s2) { standard with a := 0x0000 }) 0x0000 = some 0x5678 := by decide

/-- V-MEM-8: `stai`. -/
theorem test_mem_8_stai :
    seen (exec (.stai .s1) standard) =
      some ([0x1235, 0x00d0, 0x9abc, 0x0100, 0x4631],
        [0x00d1, 0x00d2, 0x00d3, 0x00d0], [0x00e0, 0x00e1, 0x00e2, 0x00e3], .code, .s2) ∧
    wordAfter (exec (.stai .s1) standard) 0x1234 = some 0x5678 := by decide

/-- V-MEM-13: `stai`. -/
theorem test_mem_13_stai :
    seen (exec (.stai .s0) { standard with a := 0xffff }) =
      some ([0x0000, 0x00d0, 0x9abc, 0x0100, 0x4631],
        [0x00d1, 0x00d2, 0x00d3, 0x00d0], [0x00e0, 0x00e1, 0x00e2, 0x00e3], .code, .s1) ∧
    wordAfter (exec (.stai .s0) { standard with a := 0xffff }) 0xffff = some 0x5678 := by decide

/-! ## ALU group -/

/-- V-ALU-1: `swap`. -/
theorem test_alu_1_swap :
    seen (exec (.swap .s0) standard) =
      some ([0x5678, 0x1234, 0x9abc, 0x0100, 0x4631],
        [0x00d0, 0x00d1, 0x00d2, 0x00d3], [0x00e0, 0x00e1, 0x00e2, 0x00e3], .code, .s1) := by decide

/-- V-ALU-2: `nop`. -/
theorem test_alu_2_nop :
    seen (exec (.nop .s2) standard) =
      some ([0x1234, 0x5678, 0x9abc, 0x0100, 0x4631],
        [0x00d0, 0x00d1, 0x00d2, 0x00d3], [0x00e0, 0x00e1, 0x00e2, 0x00e3], .code, .s3) := by decide

/-- V-ALU-4: `eqz`. -/
theorem test_alu_4_eqz :
    seen (exec (.eqz .s0) { standard with a := 0x0000 }) =
      some ([0xffff, 0x5678, 0x9abc, 0x0100, 0x4631],
        [0x00d0, 0x00d1, 0x00d2, 0x00d3], [0x00e0, 0x00e1, 0x00e2, 0x00e3], .code, .s1) := by decide

/-- V-ALU-5: `eqz`. -/
theorem test_alu_5_eqz :
    seen (exec (.eqz .s1) { standard with a := 0x8000 }) =
      some ([0x0000, 0x5678, 0x9abc, 0x0100, 0x4631],
        [0x00d0, 0x00d1, 0x00d2, 0x00d3], [0x00e0, 0x00e1, 0x00e2, 0x00e3], .code, .s2) := by decide

/-- V-ALU-8: `inv`. -/
theorem test_alu_8_inv :
    seen (exec (.inv .s0) standard) =
      some ([0xedcb, 0x5678, 0x9abc, 0x0100, 0x4631],
        [0x00d0, 0x00d1, 0x00d2, 0x00d3], [0x00e0, 0x00e1, 0x00e2, 0x00e3], .code, .s1) := by decide

/-- V-ALU-11: `add`. -/
theorem test_alu_11_add :
    seen (exec (.add .s0) standard) =
      some ([0x68ac, 0x0000, 0x9abc, 0x0100, 0x4631],
        [0x00d0, 0x00d1, 0x00d2, 0x00d3], [0x00e0, 0x00e1, 0x00e2, 0x00e3], .code, .s1) := by decide

/-- V-ALU-13: `add`. -/
theorem test_alu_13_add :
    seen (exec (.add .s2) { standard with a := 0xffff, d := 0xffff }) =
      some ([0xfffe, 0x0001, 0x9abc, 0x0100, 0x4631],
        [0x00d0, 0x00d1, 0x00d2, 0x00d3], [0x00e0, 0x00e1, 0x00e2, 0x00e3], .code, .s3) := by decide

/-- V-ALU-17: `lsl`. -/
theorem test_alu_17_lsl :
    seen (exec (.lsl .s0) standard) =
      some ([0x2468, 0xacf0, 0x9abc, 0x0100, 0x4631],
        [0x00d0, 0x00d1, 0x00d2, 0x00d3], [0x00e0, 0x00e1, 0x00e2, 0x00e3], .code, .s1) := by decide

/-- V-ALU-18: `lsl`. -/
theorem test_alu_18_lsl :
    seen (exec (.lsl .s1) { standard with a := 0x8000, d := 0x8001 }) =
      some ([0x0000, 0x0003, 0x9abc, 0x0100, 0x4631],
        [0x00d0, 0x00d1, 0x00d2, 0x00d3], [0x00e0, 0x00e1, 0x00e2, 0x00e3], .code, .s2) := by decide

/-- V-ALU-22: `asr`. -/
theorem test_alu_22_asr :
    seen (exec (.asr .s0) { standard with a := 0x0001, d := 0x8001 }) =
      some ([0x8000, 0xc000, 0x9abc, 0x0100, 0x4631],
        [0x00d0, 0x00d1, 0x00d2, 0x00d3], [0x00e0, 0x00e1, 0x00e2, 0x00e3], .code, .s1) := by decide

/-- V-ALU-23: `asr`. -/
theorem test_alu_23_asr :
    seen (exec (.asr .s2) { standard with a := 0x8000, d := 0x0001 }) =
      some ([0xc000, 0x0000, 0x9abc, 0x0100, 0x4631],
        [0x00d0, 0x00d1, 0x00d2, 0x00d3], [0x00e0, 0x00e1, 0x00e2, 0x00e3], .code, .s3) := by decide

/-- V-ALU-26: `lsr`. -/
theorem test_alu_26_lsr :
    seen (exec (.lsr .s0) { standard with a := 0x0001, d := 0x8001 }) =
      some ([0x8000, 0x4000, 0x9abc, 0x0100, 0x4631],
        [0x00d0, 0x00d1, 0x00d2, 0x00d3], [0x00e0, 0x00e1, 0x00e2, 0x00e3], .code, .s1) := by decide

/-- V-ALU-27: `lsr`. -/
theorem test_alu_27_lsr :
    seen (exec (.lsr .s1) { standard with a := 0xffff, d := 0xffff }) =
      some ([0xffff, 0x7fff, 0x9abc, 0x0100, 0x4631],
        [0x00d0, 0x00d1, 0x00d2, 0x00d3], [0x00e0, 0x00e1, 0x00e2, 0x00e3], .code, .s2) := by decide

/-- V-ALU-28: `over`. -/
theorem test_alu_28_over :
    seen (exec (.overOp .s0) standard) =
      some ([0x5678, 0x1234, 0x9abc, 0x0100, 0x4631],
        [0x5678, 0x00d0, 0x00d1, 0x00d2], [0x00e0, 0x00e1, 0x00e2, 0x00e3], .code, .s1) := by decide

/-- V-ALU-29: `dup`. -/
theorem test_alu_29_dup :
    seen (exec (.dup .s1) standard) =
      some ([0x1234, 0x1234, 0x9abc, 0x0100, 0x4631],
        [0x5678, 0x00d0, 0x00d1, 0x00d2], [0x00e0, 0x00e1, 0x00e2, 0x00e3], .code, .s2) := by decide

/-- V-ALU-30: `zero`. -/
theorem test_alu_30_zero :
    seen (exec (.zero .s2) standard) =
      some ([0x0000, 0x1234, 0x9abc, 0x0100, 0x4631],
        [0x5678, 0x00d0, 0x00d1, 0x00d2], [0x00e0, 0x00e1, 0x00e2, 0x00e3], .code, .s3) := by decide

/-- V-ALU-31: `one`. -/
theorem test_alu_31_one :
    seen (exec (.one .s0) standard) =
      some ([0x0001, 0x1234, 0x9abc, 0x0100, 0x4631],
        [0x5678, 0x00d0, 0x00d1, 0x00d2], [0x00e0, 0x00e1, 0x00e2, 0x00e3], .code, .s1) := by decide

/-- V-ALU-32: `nip`. -/
theorem test_alu_32_nip :
    seen (exec (.nip .s1) standard) =
      some ([0x1234, 0x00d0, 0x9abc, 0x0100, 0x4631],
        [0x00d1, 0x00d2, 0x00d3, 0x00d0], [0x00e0, 0x00e1, 0x00e2, 0x00e3], .code, .s2) := by decide

/-- V-ALU-36: `or`. -/
theorem test_alu_36_or :
    seen (exec (.or .s0) { standard with a := 0x0ff0, d := 0x3c3c }) =
      some ([0x3ffc, 0x00d0, 0x9abc, 0x0100, 0x4631],
        [0x00d1, 0x00d2, 0x00d3, 0x00d0], [0x00e0, 0x00e1, 0x00e2, 0x00e3], .code, .s1) := by decide

/-- V-ALU-37: `xor`. -/
theorem test_alu_37_xor :
    seen (exec (.xor .s2) { standard with a := 0x0ff0, d := 0x3c3c }) =
      some ([0x33cc, 0x00d0, 0x9abc, 0x0100, 0x4631],
        [0x00d1, 0x00d2, 0x00d3, 0x00d0], [0x00e0, 0x00e1, 0x00e2, 0x00e3], .code, .s3) := by decide

/-- V-ALU-38: `and`. -/
theorem test_alu_38_and :
    seen (exec (.and .s1) { standard with a := 0x0ff0, d := 0x3c3c }) =
      some ([0x0c30, 0x00d0, 0x9abc, 0x0100, 0x4631],
        [0x00d1, 0x00d2, 0x00d3, 0x00d0], [0x00e0, 0x00e1, 0x00e2, 0x00e3], .code, .s2) := by decide

/-! ## Control group, one step each -/

/-- V-CTL-2: `jmp`. -/
theorem test_ctl_2_jmp :
    seen (step { standard with
      p := 0x0413, i := 0x4407, slot := .s1,
      mem := standardMem |>.writeWord 0x0407 0x7777 }) =
      some ([0x1234, 0x5678, 0x9abc, 0x0408, 0x7777],
        [0x00d0, 0x00d1, 0x00d2, 0x00d3], [0x00e0, 0x00e1, 0x00e2, 0x00e3], .code, .s0) := by decide

/-- V-CTL-3: `jmp`. -/
theorem test_ctl_3_jmp :
    seen (step { standard with
      p := 0x0400, i := 0x0010,
      mem := standardMem |>.writeWord 0x0010 0x1111 |>.writeWord 0x0410 0x7777 }) =
      some ([0x1234, 0x5678, 0x9abc, 0x0411, 0x7777],
        [0x00d0, 0x00d1, 0x00d2, 0x00d3], [0x00e0, 0x00e1, 0x00e2, 0x00e3], .code, .s0) := by decide

/-- V-CTL-4: `jmpd`. -/
theorem test_ctl_4_jmpd :
    seen (step { standard with
      r := 0x0002, p := 0x0021, i := 0x0410,
      mem := standardMem |>.writeWord 0x0010 0x7777 |>.writeWord 0x0021 0x2222 }) =
      some ([0x1234, 0x5678, 0x0001, 0x0011, 0x7777],
        [0x00d0, 0x00d1, 0x00d2, 0x00d3], [0x00e0, 0x00e1, 0x00e2, 0x00e3], .code, .s0) := by decide

/-- V-CTL-6: `jmpd`. -/
theorem test_ctl_6_jmpd :
    seen (step { standard with
      r := 0x0000, p := 0x0021, i := 0x0410,
      mem := standardMem |>.writeWord 0x0010 0x7777 |>.writeWord 0x0021 0x2222 }) =
      some ([0x1234, 0x5678, 0x00e0, 0x0022, 0x2222],
        [0x00d0, 0x00d1, 0x00d2, 0x00d3], [0x00e1, 0x00e2, 0x00e3, 0x00e0], .code, .s0) := by decide

/-- V-CTL-8: `jmpp`. -/
theorem test_ctl_8_jmpp :
    seen (step { standard with
      a := 0x0000, p := 0x0003, i := 0x0805,
      mem := standardMem |>.writeWord 0x0003 0x2222 |>.writeWord 0x0005 0x7777 }) =
      some ([0x0000, 0x5678, 0x9abc, 0x0006, 0x7777],
        [0x00d0, 0x00d1, 0x00d2, 0x00d3], [0x00e0, 0x00e1, 0x00e2, 0x00e3], .code, .s0) := by decide

/-- V-CTL-9: `jmpp`. -/
theorem test_ctl_9_jmpp :
    seen (step { standard with
      a := 0x8000, p := 0x0003, i := 0x0805,
      mem := standardMem |>.writeWord 0x0003 0x2222 |>.writeWord 0x0005 0x7777 }) =
      some ([0x8000, 0x5678, 0x9abc, 0x0004, 0x2222],
        [0x00d0, 0x00d1, 0x00d2, 0x00d3], [0x00e0, 0x00e1, 0x00e2, 0x00e3], .code, .s0) := by decide

/-- V-CTL-10: `jmpz`. -/
theorem test_ctl_10_jmpz :
    seen (step { standard with
      a := 0x0000, p := 0x0003, i := 0x0c05,
      mem := standardMem |>.writeWord 0x0003 0x2222 |>.writeWord 0x0005 0x7777 }) =
      some ([0x0000, 0x5678, 0x9abc, 0x0006, 0x7777],
        [0x00d0, 0x00d1, 0x00d2, 0x00d3], [0x00e0, 0x00e1, 0x00e2, 0x00e3], .code, .s0) := by decide

/-- V-CTL-11: `jmpz`. -/
theorem test_ctl_11_jmpz :
    seen (step { standard with
      a := 0x0001, p := 0x0003, i := 0x0c05,
      mem := standardMem |>.writeWord 0x0003 0x2222 |>.writeWord 0x0005 0x7777 }) =
      some ([0x0001, 0x5678, 0x9abc, 0x0004, 0x2222],
        [0x00d0, 0x00d1, 0x00d2, 0x00d3], [0x00e0, 0x00e1, 0x00e2, 0x00e3], .code, .s0) := by decide

/-- V-CTL-12: `jsr`. -/
theorem test_ctl_12_jsr :
    seen (step { standard with
      p := 0x0003, i := 0x8010,
      mem := standardMem |>.writeWord 0x0003 0x2222 |>.writeWord 0x0010 0x7777 }) =
      some ([0x1234, 0x5678, 0x0003, 0x0011, 0x7777],
        [0x00d0, 0x00d1, 0x00d2, 0x00d3], [0x9abc, 0x00e0, 0x00e1, 0x00e2], .code, .s0) := by decide

/-- V-CTL-13: `jsr`. -/
theorem test_ctl_13_jsr :
    seen (step { standard with
      p := 0x0003, i := 0xc410, slot := .s1,
      mem := standardMem |>.writeWord 0x0010 0x7777 }) =
      some ([0x1234, 0x5678, 0x0003, 0x0011, 0x7777],
        [0x00d0, 0x00d1, 0x00d2, 0x00d3], [0x9abc, 0x00e0, 0x00e1, 0x00e2], .code, .s0) := by decide

/-- V-CTL-14: `jsrn`. -/
theorem test_ctl_14_jsrn :
    seen (step { standard with
      r := 0x0001, p := 0x0003, i := 0x8410,
      mem := standardMem |>.writeWord 0x0003 0x2222 |>.writeWord 0x0010 0x7777 }) =
      some ([0x1234, 0x5678, 0x0003, 0x0011, 0x7777],
        [0x00d0, 0x00d1, 0x00d2, 0x00d3], [0x0001, 0x00e0, 0x00e1, 0x00e2], .code, .s0) := by decide

/-- V-CTL-15: `jsrn`. -/
theorem test_ctl_15_jsrn :
    seen (step { standard with
      r := 0x0000, p := 0x0003, i := 0x8410,
      mem := standardMem |>.writeWord 0x0003 0x2222 |>.writeWord 0x0010 0x7777 }) =
      some ([0x1234, 0x5678, 0x0000, 0x0004, 0x2222],
        [0x00d0, 0x00d1, 0x00d2, 0x00d3], [0x00e0, 0x00e1, 0x00e2, 0x00e3], .code, .s0) := by decide

/-- V-CTL-16: `jsrp`. -/
theorem test_ctl_16_jsrp :
    seen (step { standard with
      a := 0x0000, p := 0x0003, i := 0x8810,
      mem := standardMem |>.writeWord 0x0003 0x2222 |>.writeWord 0x0010 0x7777 }) =
      some ([0x0000, 0x5678, 0x0003, 0x0011, 0x7777],
        [0x00d0, 0x00d1, 0x00d2, 0x00d3], [0x9abc, 0x00e0, 0x00e1, 0x00e2], .code, .s0) := by decide

/-- V-CTL-17: `jsrp`. -/
theorem test_ctl_17_jsrp :
    seen (step { standard with
      a := 0xffff, p := 0x0003, i := 0x8810,
      mem := standardMem |>.writeWord 0x0003 0x2222 |>.writeWord 0x0010 0x7777 }) =
      some ([0xffff, 0x5678, 0x9abc, 0x0004, 0x2222],
        [0x00d0, 0x00d1, 0x00d2, 0x00d3], [0x00e0, 0x00e1, 0x00e2, 0x00e3], .code, .s0) := by decide

/-- V-CTL-18: `jsrz`. -/
theorem test_ctl_18_jsrz :
    seen (step { standard with
      a := 0x0000, p := 0x0003, i := 0x8c10,
      mem := standardMem |>.writeWord 0x0003 0x2222 |>.writeWord 0x0010 0x7777 }) =
      some ([0x0000, 0x5678, 0x0003, 0x0011, 0x7777],
        [0x00d0, 0x00d1, 0x00d2, 0x00d3], [0x9abc, 0x00e0, 0x00e1, 0x00e2], .code, .s0) := by decide

/-- V-CTL-19: `jsrz`. -/
theorem test_ctl_19_jsrz :
    seen (step { standard with
      a := 0x0001, p := 0x0003, i := 0x8c10,
      mem := standardMem |>.writeWord 0x0003 0x2222 |>.writeWord 0x0010 0x7777 }) =
      some ([0x0001, 0x5678, 0x9abc, 0x0004, 0x2222],
        [0x00d0, 0x00d1, 0x00d2, 0x00d3], [0x00e0, 0x00e1, 0x00e2, 0x00e3], .code, .s0) := by decide

/-- V-CTL-21: `into`. -/
theorem test_ctl_21_into :
    seen (step { standard with
      p := 0x0001, i := 0x4620, slot := .s2,
      mem := standardMem |>.writeWord 0x0001 0x0010 }) =
      some ([0x1234, 0x5678, 0x9abc, 0x0002, 0x0010],
        [0x00d0, 0x00d1, 0x00d2, 0x00d3], [0x00e0, 0x00e1, 0x00e2, 0x00e3], .list, .s0) := by decide

/-- V-INT-1: `into`. -/
theorem test_int_1_into :
    seen (step { standard with
      p := 0x0001, i := 0x4620, slot := .s2, mem := standardMem |>.writeWord 0x0001 0x0010,
      answers := ⟨[.inject 0x0041], .same .memory⟩ }) =
      some ([0x1234, 0x5678, 0x9abc, 0x0001, 0x0041],
        [0x00d0, 0x00d1, 0x00d2, 0x00d3], [0x00e0, 0x00e1, 0x00e2, 0x00e3], .list, .s0) := by decide

/-- V-CTL-22: `exit`. -/
theorem test_ctl_22_exit :
    seen (step { standard with
      r := 0x0002, i := 0xee20, rs := ofList [0x9abc, 0x00e0, 0x00e1, 0x00e2], slot := .s2,
      mem := standardMem |>.writeWord 0x0002 0x0021 }) =
      some ([0x1234, 0x5678, 0x9abc, 0x0003, 0x0021],
        [0x00d0, 0x00d1, 0x00d2, 0x00d3], [0x00e0, 0x00e1, 0x00e2, 0x9abc], .list, .s0) := by decide

/-- V-INT-2: `exit`. -/
theorem test_int_2_exit :
    seen (step { standard with
      r := 0x0002, i := 0xee20, rs := ofList [0x9abc, 0x00e0, 0x00e1, 0x00e2], slot := .s2,
      mem := standardMem |>.writeWord 0x0002 0x0021, answers := ⟨[.inject 0x0040], .same .memory⟩ }) =
      some ([0x1234, 0x5678, 0x9abc, 0x0002, 0x0040],
        [0x00d0, 0x00d1, 0x00d2, 0x00d3], [0x00e0, 0x00e1, 0x00e2, 0x9abc], .list, .s0) := by decide

/-- V-CTL-23: `repd`. -/
theorem test_ctl_23_repd :
    seen (step { standard with r := 0x0003, i := 0x65e1, slot := .s2 }) =
      some ([0x1234, 0x5678, 0x0002, 0x0100, 0x65e1],
        [0x00d0, 0x00d1, 0x00d2, 0x00d3], [0x00e0, 0x00e1, 0x00e2, 0x00e3], .code, .s0) := by decide

/-- V-CTL-24: `repd`. -/
theorem test_ctl_24_repd :
    seen (step { standard with r := 0x0000, i := 0x65e1, slot := .s2 }) =
      some ([0x1234, 0x5678, 0x00e0, 0x0100, 0x65e1],
        [0x00d0, 0x00d1, 0x00d2, 0x00d3], [0x00e1, 0x00e2, 0x00e3, 0x00e0], .code, .s3) := by decide

/-- V-CTL-25: `repp`. -/
theorem test_ctl_25_repp :
    seen (step { standard with a := 0x0000, i := 0x5622, slot := .s2 }) =
      some ([0x0000, 0x5678, 0x9abc, 0x0100, 0x5622],
        [0x00d0, 0x00d1, 0x00d2, 0x00d3], [0x00e0, 0x00e1, 0x00e2, 0x00e3], .code, .s0) := by decide

/-- V-CTL-26: `repp`. -/
theorem test_ctl_26_repp :
    seen (step { standard with a := 0x8000, i := 0x5622, slot := .s2 }) =
      some ([0x8000, 0x5678, 0x9abc, 0x0100, 0x5622],
        [0x00d0, 0x00d1, 0x00d2, 0x00d3], [0x00e0, 0x00e1, 0x00e2, 0x00e3], .code, .s3) := by decide

/-- V-CTL-27: `repz`. -/
theorem test_ctl_27_repz :
    seen (step { standard with a := 0x0000, i := 0x7a23, slot := .s2 }) =
      some ([0x0000, 0x5678, 0x9abc, 0x0100, 0x7a23],
        [0x00d0, 0x00d1, 0x00d2, 0x00d3], [0x00e0, 0x00e1, 0x00e2, 0x00e3], .code, .s0) := by decide

/-- V-CTL-28: `repz`. -/
theorem test_ctl_28_repz :
    seen (step { standard with a := 0x0001, i := 0x7a23, slot := .s2 }) =
      some ([0x0001, 0x5678, 0x9abc, 0x0100, 0x7a23],
        [0x00d0, 0x00d1, 0x00d2, 0x00d3], [0x00e0, 0x00e1, 0x00e2, 0x00e3], .code, .s3) := by decide

/-- V-CTL-29: `nxt`. -/
theorem test_ctl_29_nxt :
    seen (step { standard with
      p := 0x0006, i := 0x4631, slot := .s3,
      mem := standardMem |>.writeWord 0x0006 0x7777 }) =
      some ([0x1234, 0x5678, 0x9abc, 0x0007, 0x7777],
        [0x00d0, 0x00d1, 0x00d2, 0x00d3], [0x00e0, 0x00e1, 0x00e2, 0x00e3], .code, .s0) := by decide

/-- V-CTL-30: `nxt`. -/
theorem test_ctl_30_nxt :
    seen (step { standard with
      p := 0xffff, i := 0x4631, slot := .s3,
      mem := standardMem |>.writeWord 0xffff 0x7777 }) =
      some ([0x1234, 0x5678, 0x9abc, 0x0000, 0x7777],
        [0x00d0, 0x00d1, 0x00d2, 0x00d3], [0x00e0, 0x00e1, 0x00e2, 0x00e3], .code, .s0) := by decide

/-- V-CTL-31: `ret`. -/
theorem test_ctl_31_ret :
    seen (step { standard with
      r := 0x0003, i := 0xe69c, rs := ofList [0x9abc, 0x00e0, 0x00e1, 0x00e2], slot := .s3,
      mem := standardMem |>.writeWord 0x0003 0x7777 }) =
      some ([0x1234, 0x5678, 0x9abc, 0x0004, 0x7777],
        [0x00d0, 0x00d1, 0x00d2, 0x00d3], [0x00e0, 0x00e1, 0x00e2, 0x9abc], .code, .s0) := by decide

/-! ## The platform (R52) -/

/-- The livelock of R234: the handler's `exit` is overridden, P stays at the displaced token 0x0021, and the return
stack is balanced. -/
theorem test_stuck_line :
    seen (step { handlerDone with i := 0xb8c0, execState := .code, slot := .s2, answers := stuckLine }) =
      some ([0x1234, 0x5678, 0x0003, 0x0021, 0x0040],
        [0x00d0, 0x00d1, 0x00d2, 0x00d3], [0x9abc, 0x00e0, 0x00e1, 0x0003], .list, .s0) := by decide

/-- A device answers in turn, a store to it leaves plain memory alone and shows on the pins, and a fetch behind a window
executes what the device returns. -/
theorem test_device_access :
    (∃ t u, exec (.lda .s0) withDevice = .next t ∧ t.d = 1 ∧ exec (.lda .s1) t = .next u ∧ u.d = 2) ∧
    (∃ t, exec (.sta .s0) withDevice = .next t ∧ t.mem = withDevice.mem ∧ t.bus = .write 0x8000 0x5678) ∧
    (∃ t, exec .nxt { withDevice with p := 0x8001 } = .next t ∧ t.i = 1 ∧ t.devices.replies = [2]) :=
  ⟨⟨_, _, rfl, rfl, rfl, rfl⟩, ⟨_, rfl, rfl, rfl⟩, ⟨_, rfl, rfl, rfl⟩⟩

/-- V-RST-1: reset fetches word 0, with stacks of four cells and the given memory (R7, R260). -/
theorem test_rst_1 :
    (State.resetWith ⟨4, 4, (Memory.mk []).writeWord 0 0x2208, ⟨[], [], 0⟩, ⟨[], .same .memory⟩⟩).i = 0x2208 ∧
    (State.resetWith ⟨4, 4, (Memory.mk []).writeWord 0 0x2208, ⟨[], [], 0⟩, ⟨[], .same .memory⟩⟩).p = 1 ∧
    (State.resetWith ⟨4, 4, (Memory.mk []).writeWord 0 0x2208, ⟨[], [], 0⟩, ⟨[], .same .memory⟩⟩).ds.depth = 4 := by decide

/-! ## Execution tokens -/

/-- V-TOK-1: `tok.exit`. -/
theorem test_tok_1_tok_exit :
    seen (step { standard with
      r := 0x0003, p := 0x0024, i := 0x0000, rs := ofList [0x9abc, 0x00e0, 0x00e1, 0x00e2],
      execState := .list, mem := standardMem |>.writeWord 0x0003 0x0030 }) =
      some ([0x1234, 0x5678, 0x9abc, 0x0004, 0x0030],
        [0x00d0, 0x00d1, 0x00d2, 0x00d3], [0x00e0, 0x00e1, 0x00e2, 0x9abc], .list, .s0) := by decide

/-- V-INT-3: `tok.exit`. -/
theorem test_int_3_tok_exit :
    seen (step { standard with
      r := 0x0003, p := 0x0024, i := 0x0000, rs := ofList [0x9abc, 0x00e0, 0x00e1, 0x00e2],
      execState := .list, mem := standardMem |>.writeWord 0x0003 0x0030, answers := ⟨[.inject 0x0040], .same .memory⟩ }) =
      some ([0x1234, 0x5678, 0x9abc, 0x0003, 0x0040],
        [0x00d0, 0x00d1, 0x00d2, 0x00d3], [0x00e0, 0x00e1, 0x00e2, 0x9abc], .list, .s0) := by decide

/-- V-TOK-2: `tok.call`. -/
theorem test_tok_2_tok_call :
    seen (step { standard with
      p := 0x0002, i := 0x0010, execState := .list,
      mem := standardMem |>.writeWord 0x0010 0xee20 }) =
      some ([0x1234, 0x5678, 0x0002, 0x0011, 0xee20],
        [0x00d0, 0x00d1, 0x00d2, 0x00d3], [0x9abc, 0x00e0, 0x00e1, 0x00e2], .code, .s0) := by decide

/-- V-INT-5: `tok.call`. -/
theorem test_int_5_tok_call :
    seen (step { standard with
      r := 0x0003, p := 0x0021, i := 0x0040, rs := ofList [0x9abc, 0x00e0, 0x00e1, 0x00e2],
      execState := .list, mem := standardMem |>.writeWord 0x0040 0x2208 }) =
      some ([0x1234, 0x5678, 0x0021, 0x0041, 0x2208],
        [0x00d0, 0x00d1, 0x00d2, 0x00d3], [0x0003, 0x9abc, 0x00e0, 0x00e1], .code, .s0) := by decide

/-- V-TOK-4: `tok.nest`. -/
theorem test_tok_4_tok_nest :
    seen (step { standard with
      p := 0x0003, i := 0xffff, execState := .list,
      mem := standardMem |>.writeWord 0xffff 0x0010 }) =
      some ([0x1234, 0x5678, 0x0003, 0x0000, 0x0010],
        [0x00d0, 0x00d1, 0x00d2, 0x00d3], [0x9abc, 0x00e0, 0x00e1, 0x00e2], .list, .s0) := by decide

/-- V-INT-4: `tok.nest`. -/
theorem test_int_4_tok_nest :
    seen (step { standard with
      p := 0x0003, i := 0x0021, execState := .list, mem := standardMem |>.writeWord 0x0021 0x0010,
      answers := ⟨[.inject 0x0040], .same .memory⟩ }) =
      some ([0x1234, 0x5678, 0x0003, 0x0021, 0x0040],
        [0x00d0, 0x00d1, 0x00d2, 0x00d3], [0x9abc, 0x00e0, 0x00e1, 0x00e2], .list, .s0) := by decide

/-! ## The host's two definitions on table words -/

/-- A row's bits are found at their slot, and a step from reset runs them (log entry 5). -/
theorem test_table_words :
    decodeTableWord 16 0x1000 = some (.get .s0) ∧ decodeTableWord 16 0x0080 = some (.get .s1) ∧
    decodeTableWord 16 0x0004 = some (.get .s2) ∧ decodeTableWord 16 0x8c00 = some (.jsrz (.slot0 0)) ∧
    decodeTableWord 16 0x0060 = some (.jmpz (.slot1 0)) ∧ decodeTableWord 16 0x0001 = some .repd ∧
    decodeTableWord 17 0x10000 = none := by decide

theorem test_fetched_word_runs :
    step (State.reset.withFetchWord 16 0x0080) = exec (.get .s1) (State.reset.withFetchWord 16 0x0080) := rfl

/-! ## Ill-formed instructions are refused by the check -/

theorem test_wf_refuses_odd_code_token : (Instr.tokCall 0x0011).wf = false := by decide
theorem test_wf_refuses_zero_code_token : (Instr.tokCall 0x0000).wf = false := by decide
theorem test_wf_refuses_even_list_token : (Instr.tokNest 0x0010).wf = false := by decide
theorem test_wf_refuses_zero_list_token : (Instr.tokNest 0x0000).wf = false := by decide

/-! ## Witnesses: for each statement with hypotheses, states and operands that meet them together -/

theorem witness_DecodeEncodeRoundTrip :
    (Instr.tokCall 0x0002).wf = true ∧ (Instr.tokCall 0xfffe).wf = true ∧ (Instr.tokNest 0x0001).wf = true ∧
    (Instr.tokNest 0xffff).wf = true ∧ (Instr.jmp (.slot0 0x3ff)).wf = true := by decide

theorem witness_StepRunsDecodedInstruction : decode standard.place standard.i = .nop .s0 := by decide

theorem witness_StepKeepsInvariant : standard.Inv ∧ ∃ t, step standard = .next t := ⟨by decide, _, rfl⟩

/-- Two states whose stacks read alike and whose indices differ. -/
theorem witness_StackIndexUnobservable :
    standard.ds.wf = true ∧ standard.rs.wf = true ∧ turned.ds.wf = true ∧ turned.rs.wf = true ∧
    standard.sameButIndex turned ∧ standard.ds.index ≠ turned.ds.index := by
  refine ⟨by decide, by decide, by decide, by decide,
    ⟨by decide, by decide, rfl, rfl, rfl, rfl, rfl, rfl, rfl, rfl⟩, by decide⟩

theorem witness_StepKeepsStackDepths : ∃ t, step standard = .next t := ⟨_, rfl⟩

/-- The four ways in, and `into`, which is none. -/
theorem witness_SlotThreeReachedInTwoWays :
    (∃ t, ({ standard with slot := .s2 } : State).slotReached = true ∧
      step { standard with slot := .s2 } = .next t ∧ t.slot = .s3) ∧
    (∃ t, ({ standard with slot := .s2, i := 0x65e1, r := 0 } : State).slotReached = true ∧
      step { standard with slot := .s2, i := 0x65e1, r := 0 } = .next t ∧ t.slot = .s3) ∧
    (∃ t, ({ standard with slot := .s2, i := 0x5622, a := 0x8000 } : State).slotReached = true ∧
      step { standard with slot := .s2, i := 0x5622, a := 0x8000 } = .next t ∧ t.slot = .s3) ∧
    (∃ t, ({ standard with slot := .s2, i := 0x7a23, a := 1 } : State).slotReached = true ∧
      step { standard with slot := .s2, i := 0x7a23, a := 1 } = .next t ∧ t.slot = .s3) ∧
    (∃ t, ({ standard with slot := .s2, i := 0x4620 } : State).slotReached = true ∧
      step { standard with slot := .s2, i := 0x4620 } = .next t ∧ t.slot = .s0) :=
  ⟨⟨_, by decide, rfl, by decide⟩, ⟨_, by decide, rfl, by decide⟩, ⟨_, by decide, rfl, by decide⟩,
    ⟨_, by decide, rfl, by decide⟩, ⟨_, by decide, rfl, by decide⟩⟩

theorem witness_OpcodeMeansTheSameInEverySlot : Instr.get ∈ slotFreeOpcodes ∧ Instr.and ∈ slotFreeOpcodes := by
  simp [slotFreeOpcodes]

theorem witness_InstructionKeptUntilNextFetch :
    ∃ t, step standard = .next t ∧ t.bus.kind ≠ .word ∧ t.bus.kind ≠ .token :=
  ⟨_, rfl, by decide, by decide⟩

theorem witness_BusAccessFollowsTable : ∃ t, exec (.sta .s0) standard = .next t := ⟨_, rfl⟩

theorem witness_MemoryChangesOnlyByBusWrite :
    ∃ t, step { standard with i := 0x3a31 } = .next t ∧ standard.mem.wf = true ∧
      t.mem.readWord 0x1234 ≠ standard.mem.readWord 0x1234 ∧ t.bus = .write 0x1234 0x5678 ∧
      standard.devices.covers 0x1234 = false :=
  ⟨_, rfl, by decide, by decide, rfl, rfl⟩

/-- A data read, a word fetch and a token fetch that is not overridden. -/
theorem witness_EachReadIsAnsweredOnce :
    (∃ t, exec (.lda .s0) withDevice = .next t ∧ t.bus = .read 0x8000) ∧
    (∃ t, exec .nxt standard = .next t ∧ t.bus = .fetchWord 0x0100) ∧
    (∃ t, exec .into standard = .next t ∧ t.bus = .fetchToken 0x0100 ∧ standard.held = none) :=
  ⟨⟨_, rfl, rfl⟩, ⟨_, rfl, rfl⟩, ⟨_, rfl, rfl, rfl⟩⟩

/-- Both ends of a window, the addresses next to it, and no window. -/
theorem witness_DeviceRepliesComeInOrder :
    withDevice.devices.covers 0x8000 = true ∧ withDevice.devices.covers 0x8001 = true ∧
    withDevice.devices.covers 0x7fff = false ∧ withDevice.devices.covers 0x8002 = false ∧
    withDevice.devices.replies = [1, 2] ∧ standard.devices.windows = [] := by decide

/-- One instruction for each use of DS. -/
theorem witness_DataStackTouchedOnlyByTable :
    (∃ t, exec (.nop .s0) standard = .next t ∧ dsUse (.nop .s0) = .untouched) ∧
    (∃ t, exec (.get .s0) standard = .next t ∧ dsUse (.get .s0) = .pushes) ∧
    (∃ t, exec (.nip .s0) standard = .next t ∧ dsUse (.nip .s0) = .pops) :=
  ⟨⟨_, rfl, rfl⟩, ⟨_, rfl, rfl⟩, ⟨_, rfl, rfl⟩⟩

/-- One instruction for each use of RS, a conditional one at the boundary of its condition. -/
theorem witness_ReturnStackTouchedOnlyByTable :
    (∃ t, exec (.jsrp (.slot0 1)) { standard with a := 0x8000 } = .next t ∧
      rsUse (.jsrp (.slot0 1)) { standard with a := 0x8000 } = .untouched) ∧
    (∃ t, exec (.jsrp (.slot0 1)) { standard with a := 0x7fff } = .next t ∧
      rsUse (.jsrp (.slot0 1)) { standard with a := 0x7fff } = .pushes) ∧
    (∃ t, exec .repd { standard with r := 0 } = .next t ∧ rsUse .repd { standard with r := 0 } = .pops) :=
  ⟨⟨_, rfl, by decide⟩, ⟨_, rfl, by decide⟩, ⟨_, rfl, by decide⟩⟩

theorem witness_RegistersWrittenOnlyByTheirWriters :
    (∃ t, exec (.nop .s0) standard = .next t ∧ writesA (.nop .s0) = false ∧ writesD (.nop .s0) = false ∧
      writesR (.nop .s0) = false ∧ writesP (.nop .s0) = false) := ⟨_, rfl, rfl, rfl, rfl, rfl⟩

/-- A stack of four cells, and one of a single cell, the least depth there is (R7). -/
theorem witness_StackIsACircularList :
    (ofList [1, 2, 3, 4]).wf = true ∧ (ofList [1]).wf = true := by decide

theorem witness_PushesThenPopsReverse :
    (ofList [1, 2]).wf = true ∧ [(7 : Word), 8].length ≤ (ofList [1, 2]).depth := by decide

theorem witness_OnlyLastPushesSurvive :
    (ofList [1, 2]).wf = true ∧ (ofList [1, 2]).depth ≤ [(7 : Word), 8].length ∧
    (ofList [1, 2]).depth ≤ [(7 : Word), 8, 9].length := by decide

theorem witness_PopsCycleThroughTheCells : (ofList [1, 2, 3]).wf = true := by decide

/-- Both stacks in order: MoveGroupStackEffects, PushThenPopRestores, LoadsPutTheWordUnderA, AluPushersGrowTheStack,
AluPoppersRefillD, IntoAndExitEnterListState, NxtAndRetFetch, TokensReturnCallAndNest. -/
theorem witness_stacks_in_order : standard.ds.wf = true ∧ standard.rs.wf = true := by decide

/-- DS and memory in order: StoresWriteDAndNothingElse. One store goes to plain memory, one to a device. -/
theorem witness_StoresWriteDAndNothingElse :
    standard.ds.wf = true ∧ standard.mem.wf = true ∧ (0xffff : Word) ≠ standard.r ∧ (0 : Word) ≠ standard.a ∧
    standard.devices.covers standard.a = false ∧ withDevice.devices.covers withDevice.a = true := by decide

/-- A store to plain memory at A with A kept, which `lda` then reads, and one at the address P points at, which `lit`
reads and `nxt` and `into` fetch. -/
theorem witness_StoredWordIsReadAndFetched :
    (∃ t u, standard.mem.wf = true ∧ exec (.sta .s0) standard = .next t ∧ t.bus = .write 0x1234 0x5678 ∧
      standard.devices.covers 0x1234 = false ∧ exec (.lda .s1) t = .next u ∧ u.bus = .read 0x1234) ∧
    (∃ t, standard.mem.wf = true ∧ exec (.sta .s0) { standard with a := 0x0100 } = .next t ∧
      t.bus = .write 0x0100 0x5678 ∧ standard.devices.covers 0x0100 = false ∧ t.held = none ∧
      busAccessOf (.lit .s1) t = .read 0x0100 ∧ busAccessOf .nxt t = .fetchWord 0x0100 ∧
      busAccessOf .into t = .fetchToken 0x0100) :=
  ⟨⟨_, _, by decide, rfl, rfl, rfl, rfl, rfl⟩, ⟨_, by decide, rfl, rfl, rfl, rfl, rfl, rfl, rfl⟩⟩

/-- A canonical memory reached by two different writes in two orders. -/
theorem witness_CanonicalMemoriesReadAlikeAreEqual :
    (((Memory.mk []).writeWord 0xffff 1).writeWord 2 3).wf = true ∧
    (((Memory.mk []).writeWord 2 3).writeWord 0xffff 1).wf = true ∧
    ((Memory.mk []).writeWord 0xffff 1).writeWord 2 3 = ((Memory.mk []).writeWord 2 3).writeWord 0xffff 1 := by decide

/-- Opcode bits in each slot: SwapNopEqzInv and ShiftsMoveThePair. -/
theorem witness_opcode_bits :
    opBits 0x4000 .s0 = 0x10 ∧ opBits 0x0220 .s1 = 0x11 ∧ opBits 0x0012 .s2 = 0x12 ∧ opBits 0x4c00 .s0 = 0x13 ∧
    opBits 0x02a0 .s1 = 0x15 ∧ opBits 0x0016 .s2 = 0x16 ∧ opBits 0x5c00 .s0 = 0x17 := by decide

/-- R at zero and just above it: JmpdCountsDownThenPops and RepdCountsDownThenPops. -/
theorem witness_countdown :
    standard.rs.wf = true ∧ ({ standard with r := 0 } : State).r.toNat = 0 ∧
    ({ standard with r := 1 } : State).r.toNat ≠ 0 := by decide

/-- The conditions of the calls on both sides of their boundaries: CallsLinkAndFetch. -/
theorem witness_CallsLinkAndFetch :
    standard.rs.wf = true ∧ ({ standard with r := 1 } : State).r.toNat ≠ 0 ∧
    ({ standard with a := 0x7fff } : State).a.toNat < 32768 ∧
    ¬ ({ standard with a := 0x8000 } : State).a.toNat < 32768 ∧ ({ standard with a := 0 } : State).a.toNat = 0 := by
  decide

/-- The witness of ResetFetchesWordZero: a platform with plain memory at address 0. -/
theorem witness_ResetFetchesWordZero : standard.devices.covers 0 = false := rfl

theorem witness_NotTakenIsNxt :
    ({ standard with r := 0 } : State).r = 0 ∧ ({ standard with a := 0x8000 } : State).a.getLsbD 15 = true ∧
    ({ standard with a := 1 } : State).a ≠ 0 := by decide

theorem witness_ReppAndRepzWriteOnlySlot : opBits 0xd622 .s2 = 0x02 ∧ opBits 0x7a23 .s2 = 0x03 := by decide

/-- No answer left, and one that leaves `hold` low. -/
theorem witness_ReturnsDifferOnlyInState :
    standard.held = none ∧ ({ standard with answers := ⟨[.memory, .inject 2], .same .memory⟩ } : State).held = none := ⟨rfl, rfl⟩

theorem witness_InjectionReplacesOnlyToken :
    accessKindOf .into = .token ∧ accessKindOf .exit = .token ∧ accessKindOf .tokExit = .token ∧
    accessKindOf (.tokNest 0x0051) = .token ∧
    (TokenAnswers.mk [.memory] (.same .memory)).next = .memory ∧ (TokenAnswers.mk [] (.same .memory)).next = .memory ∧
    (TokenAnswers.mk [.inject 0] (.same .memory)).next = .inject 0 ∧
    (TokenAnswers.mk [] (.same (.inject 0x0040))).next = .inject 0x0040 := by decide

theorem witness_OnlyTokenFetchesUseTokenAnswers :
    accessKindOf (decode standard.place standard.i) ≠ .token := by decide

/-- The interrupt of V-INT-4 and V-INT-5: 0x0040 was injected, and a handler that gave R and RS back stands at its
`exit` (the word 0xb8c0 of program P6) or, if it was a list, at its zero token. -/
theorem witness_InterruptReturnsToDisplacedToken :
    interrupted.execState = .list ∧ interrupted.i ≠ 0 ∧ interrupted.rs.wf = true ∧
    ∃ t, step interrupted = .next t ∧
      (∃ u : State, u.rs.wf = true ∧ u.returnStack = t.returnStack ∧ u.held = none ∧
        decode u.place u.i = .exit) ∧
      (∃ u : State, u.rs.wf = true ∧ u.returnStack = t.returnStack ∧ u.held = none ∧
        decode u.place u.i = .tokExit) := by
  refine ⟨rfl, by decide, by decide, _, rfl, ?_, ?_⟩
  · exact ⟨{ handlerDone with i := 0xb8c0, execState := .code, slot := .s2 }, by decide, by decide, rfl, by decide⟩
  · exact ⟨{ handlerDone with i := 0 }, by decide, by decide, rfl, by decide⟩

theorem witness_StuckLineOverridesEveryTokenFetch :
    ({ standard with answers := stuckLine } : State).stuckHigh 0x0040 ∧
    ∃ t, step { standard with answers := stuckLine, i := 0x4620, slot := .s2 } = .next t ∧
      t.bus = .fetchToken 0x0100 := ⟨rfl, _, rfl, rfl⟩

/-- As for InterruptReturnsToDisplacedToken, with the line stuck. -/
theorem witness_OverriddenReturnKeepsTheDisplacedToken :
    ∃ t, step interrupted = .next t ∧
      (∃ u : State, u.rs.wf = true ∧ u.returnStack = t.returnStack ∧ u.held = some 0x0040 ∧
        decode u.place u.i = .exit) ∧
      (∃ u : State, u.rs.wf = true ∧ u.returnStack = t.returnStack ∧ u.held = some 0x0040 ∧
        decode u.place u.i = .tokExit) := by
  refine ⟨_, rfl, ?_, ?_⟩
  · exact ⟨{ handlerDone with i := 0xb8c0, execState := .code, slot := .s2, answers := stuckLine }, by decide,
      by decide, rfl, by decide⟩
  · exact ⟨{ handlerDone with i := 0, answers := stuckLine }, by decide, by decide, rfl, by decide⟩

end Sys2Proof.Tests
end

section
/-! What one instruction can do to the two stack memories (R31), and that none of it changes how many cells they
have. -/

namespace Sys2Proof.Machine

/-- The three things an instruction can do to a stack memory whose register holds `v`: leave it, push `v`, pop it
(R14, R31). -/
inductive Stack.Touched (st : Stack) (v : Word) : Stack → Prop where
  | kept : Stack.Touched st v st
  | pushed : Stack.Touched st v (st.push v)
  | popped : Stack.Touched st v st.popped

theorem Stack.Touched.depth_eq {st st' : Stack} {v : Word} (h : st.Touched v st') : st'.depth = st.depth := by
  cases h with
  | kept => rfl
  | pushed => exact st.push_depth v
  | popped => exact st.popped_depth

@[simp] theorem State.fetchWord_ds (s : State) (a : Word) : (s.fetchWord a).ds = s.ds := by
  rw [State.fetchWord_eq]

@[simp] theorem State.fetchWord_rs (s : State) (a : Word) : (s.fetchWord a).rs = s.rs := by
  rw [State.fetchWord_eq]

@[simp] theorem State.fetchToken_ds (s : State) (a : Word) : (s.fetchToken a).ds = s.ds := by
  obtain ⟨-, -, -, hds, -⟩ := s.fetchToken_frame a
  exact hds

@[simp] theorem State.fetchToken_rs (s : State) (a : Word) : (s.fetchToken a).rs = s.rs := by
  obtain ⟨-, -, -, -, hrs, -⟩ := s.fetchToken_frame a
  exact hrs

/-- From `s` to `t` each stack memory is left, pushed with the register above it, or popped. -/
def State.StacksTouched (s t : State) : Prop := s.ds.Touched s.d t.ds ∧ s.rs.Touched s.r t.rs

namespace State.StacksTouched

variable {s t : State}

theorem fetchWord (a : Word) (h : s.StacksTouched t) : s.StacksTouched (t.fetchWord a) := by
  simpa only [State.StacksTouched, State.fetchWord_ds, State.fetchWord_rs] using h

theorem fetchToken (a : Word) (h : s.StacksTouched t) : s.StacksTouched (t.fetchToken a) := by
  simpa only [State.StacksTouched, State.fetchToken_ds, State.fetchToken_rs] using h

theorem refl (s : State) : s.StacksTouched s := ⟨.kept, .kept⟩

/-- Call linkage pushes R on RS. -/
theorem link (s : State) : s.StacksTouched s.link := ⟨.kept, .pushed⟩

theorem popRSToR (s : State) : s.StacksTouched s.popRSToR := ⟨.kept, .popped⟩

theorem jumpIf (taken : Bool) (g : PageAddr) (h : s.StacksTouched t) : s.StacksTouched (t.jumpIf taken g) := by
  rw [State.jumpIf_eq]
  exact h.fetchWord _

theorem callIf (s : State) (taken : Bool) (g : PageAddr) : s.StacksTouched (s.callIf taken g) := by
  cases taken with
  | true => exact (link s).fetchWord _
  | false => exact (refl s).fetchWord _

/-- The fetch leaves both stacks as they were, so the pop after it pops the RS of `s`. -/
theorem returnToList (s : State) : s.StacksTouched s.returnToList := by
  rw [State.returnToList_eq]
  exact ⟨((refl s).fetchToken s.r).1, .popped⟩

theorem returnToCode (s : State) : s.StacksTouched s.returnToCode := by
  rw [State.returnToCode_eq]
  exact ⟨.kept, .popped⟩

end State.StacksTouched

open State.StacksTouched in
/-- Every instruction leaves, pushes or pops each stack memory, at most once, and does nothing else to it (R31). -/
theorem exec_stacksTouched {i : Instr} {s t : State} (h : exec i s = .next t) : s.StacksTouched t := by
  cases i with
  | get k | lit k | ldri k | lda k | ldai k | overOp k | dup k | zero k | one k => cases h; exact ⟨.pushed, .kept⟩
  | pop k => cases h; exact ⟨.pushed, .popped⟩
  | drop k | str k | stri k | sta k | stai k | nip k | or k | xor k | and k => cases h; exact ⟨.popped, .kept⟩
  | push k => cases h; exact ⟨.popped, .pushed⟩
  | swap k | nop k | eqz k | inv k | add k | lsl k | asr k | lsr k => cases h; exact ⟨.kept, .kept⟩
  | jmp g | jmpp g | jmpz g => cases h; exact (refl s).jumpIf _ g
  | jsr g | jsrn g | jsrp g | jsrz g => cases h; exact callIf s _ g
  | jmpd g =>
    cases hr : s.rNonZero with
    | true => rw [exec_jmpd_taken s g hr] at h; cases h; exact fetchWord _ ⟨.kept, .kept⟩
    | false => rw [exec_jmpd_not_taken s g hr] at h; cases h; exact (popRSToR s).fetchWord _
  | repd =>
    cases hr : s.rNonZero with
    | true => rw [exec_repd_taken s hr] at h; cases h; exact ⟨.kept, .kept⟩
    | false => rw [exec_repd_not_taken s hr] at h; cases h; exact popRSToR s
  | repp | repz => cases h; exact ⟨.kept, .kept⟩
  | nxt => cases h; exact (refl s).fetchWord s.p
  | ret => cases h; exact returnToCode s
  | into => cases h; exact (refl s).fetchToken s.p
  | exit | tokExit => cases h; exact returnToList s
  | tokCall a => cases h; exact (link s).fetchWord a
  | tokNest a => cases h; exact (link s).fetchToken a

/-- Settles O11: whatever a step does to a stack memory, a push and a pop keep its depth. -/
theorem stepKeepsStackDepths : Obligations.StepKeepsStackDepths := by
  intro s t h
  obtain ⟨hds, hrs⟩ := exec_stacksTouched (i := decode s.place s.i) h
  exact ⟨hds.depth_eq, hrs.depth_eq⟩

end Sys2Proof.Machine
end

section
/-! What an address returns behind a device window and in plain memory, one read after another (R52, R54). -/

namespace Sys2Proof.Machine

theorem Devices.covers_of_no_windows {dv : Devices} (h : dv.windows = []) (a : Word) : dv.covers a = false := by
  simp [Devices.covers, h]

theorem Devices.reply_of_cons {dv : Devices} {v : Word} {rest : List Word} (h : dv.replies = v :: rest) (a : Word) :
    dv.reply a = v := by
  simp [Devices.reply, h]

/-- A read in plain memory leaves the machine as it is. -/
theorem State.answered_plain {s : State} {a : Word} (h : s.devices.covers a = false) : s.answered a = s := by
  rw [State.answered_eq, Devices.afterRead_plain h]

@[simp] theorem State.answered_covers (s : State) (a b : Word) :
    (s.answered a).devices.covers b = s.devices.covers b := s.devices.afterRead_covers a b

/-- A read behind a window returns the first of the replies left. -/
theorem State.memRead_reply {s : State} {a v : Word} {rest : List Word} (h : s.devices.covers a = true)
    (hr : s.devices.replies = v :: rest) : s.memRead a = v := by
  rw [State.memRead_device h, Devices.reply_of_cons hr]

/-- A read behind a window leaves the replies after the first. -/
theorem State.answered_replies {s : State} {a v : Word} {rest : List Word} (h : s.devices.covers a = true)
    (hr : s.devices.replies = v :: rest) : (s.answered a).devices.replies = rest := by
  simp [State.answered_eq, Devices.afterRead_device h, hr]

/-- A read, wherever it goes, changes no word that plain memory returns. -/
theorem State.memRead_answered_plain {s : State} {b : Word} (a : Word) (h : s.devices.covers b = false) :
    (s.answered a).memRead b = s.memRead b := by
  rw [State.memRead_plain h, State.memRead_plain ((s.answered_covers a b).trans h)]
  rfl

/-- Settles O18, by whether a window covers the address. -/
theorem deviceRepliesComeInOrder : Obligations.DeviceRepliesComeInOrder := by
  intro s a
  refine ⟨fun h => ⟨State.memRead_plain h, State.answered_plain h⟩, fun h => Devices.covers_of_no_windows h a, ?_⟩
  intro h v w rest hr
  have hnext : (s.answered a).memRead a = w :=
    State.memRead_reply ((s.answered_covers a a).trans h) (State.answered_replies h hr)
  exact ⟨State.memRead_reply h hr, hnext, fun _ hb => State.memRead_answered_plain a hb⟩

end Sys2Proof.Machine
end

section
/-! What a reset leaves on an implementation with any parameters (R7, R260), and that the machine `Params.machine` makes
that reset its first step. -/

namespace Sys2Proof.Machine

/-- The unlisted word 0x0000 that `State.reset` holds in I is `jmp 0x000` in slot 0 (R95). -/
theorem decode_reset_word : decode (.code .s0) Config.unlistedWord = .jmp (.slot0 0) := by decide

/-- The first step of `Params.machine` is its reset. -/
theorem Params.step_machine (q : Params) : step q.machine = .next q.machine.resetFrom := by
  have htarget : pageTarget (.slot0 0) q.machine.p = 0 := by
    show pageTarget (.slot0 0) 1 = 0
    decide
  calc step q.machine = exec (decode (.code .s0) Config.unlistedWord) q.machine := rfl
    _ = .next (q.machine.fetchWord (pageTarget (.slot0 0) q.machine.p)) := by rw [decode_reset_word, exec_jmp]
    _ = .next q.machine.resetFrom := by rw [htarget, State.resetFrom]

/-- Settles O54: a reset is the fetch of word 0, and so is the first step of the machine with the parameters placed. -/
theorem resetFetchesWordZero : Obligations.ResetFetchesWordZero := by
  refine ⟨fun s => ?_, fun q => ?_⟩
  · obtain ⟨hi, hp, hdevices, hstate, hslot, hanswers, hbus⟩ := s.fetchWord_fetchedWord 0
    obtain ⟨hdata, hr, hrs⟩ := s.fetchWord_frame 0
    exact ⟨hi, hp, hstate, hslot, hbus, hdata, hr, hrs, hdevices, hanswers⟩
  · have hword : q.devices.covers 0 = false → (State.resetWith q).i = q.mem.readWord 0 :=
      fun h => State.memRead_plain (s := q.machine) h
    exact ⟨Stack.reset_depth _, Stack.reset_depth _, rfl, rfl, rfl, hword, q.step_machine⟩

end Sys2Proof.Machine
end

section
/-! What an instruction does to the sequencer (R90, R112, R124), by whether it stands in the control group: an opcode
outside it moves on to the next slot; the others write R and RS and then fetch or repeat. -/

namespace Sys2Proof.Machine

/-! ## A token fetch does not look at the stacks -/

theorem State.fetchToken_setR (s : State) (a v : Word) : (s.setR v).fetchToken a = (s.fetchToken a).setR v := by
  simp only [State.fetchToken, State.setR_answers]
  cases s.answers.next <;> rfl

theorem State.fetchToken_setRS (s : State) (a : Word) (st : Stack) :
    (s.setRS st).fetchToken a = (s.fetchToken a).setRS st := by
  simp only [State.fetchToken, State.setRS_answers]
  cases s.answers.next <;> rfl

theorem State.fetchToken_setDS (s : State) (a : Word) (st : Stack) :
    (s.setDS st).fetchToken a = (s.fetchToken a).setDS st := by
  simp only [State.fetchToken, State.setDS_answers]
  cases s.answers.next <;> rfl

/-! ## Opcodes of every slot, and the control group -/

/-- The slot of an opcode outside the control group: one of the 28 that mean the same in every slot (R90, R95). -/
def opSlotOf : Instr → Option OpSlot
  | .get k | .pop k | .drop k | .push k => some k
  | .lit k | .ldri k | .lda k | .ldai k | .str k | .stri k | .sta k | .stai k => some k
  | .swap k | .nop k | .eqz k | .inv k | .add k | .lsl k | .asr k | .lsr k => some k
  | .overOp k | .dup k | .zero k | .one k | .nip k | .or k | .xor k | .and k => some k
  | .jmp _ | .jmpd _ | .jmpp _ | .jmpz _ | .jsr _ | .jsrn _ | .jsrp _ | .jsrz _ => none
  | .into | .exit | .repd | .repp | .repz | .nxt | .ret => none
  | .tokExit | .tokCall _ | .tokNest _ => none

/-- The three repeats of slot 2, which fetch nothing (R124). -/
def isRepeat : Instr → Bool
  | .repd | .repp | .repz => true
  | _ => false

/-- An opcode outside the control group moves on to the next slot and keeps what a fetch writes (R90). -/
theorem exec_opcodeFrame {i : Instr} {k : OpSlot} {s t : State} (hi : opSlotOf i = some k)
    (h : exec i s = .next t) : s.opcodeFrame t k := by
  cases i with
  | get | pop | drop | push | lit | ldri | lda | ldai | str | stri | sta | stai | swap | nop | eqz | inv | add | lsl
  | asr | lsr | overOp | dup | zero | one | nip | or | xor | and => cases hi; cases h; exact ⟨rfl, rfl, rfl, rfl⟩
  | jmp | jmpd | jmpp | jmpz | jsr | jsrn | jsrp | jsrz | into | exit | repd | repp | repz | nxt | ret | tokExit
  | tokCall | tokNest => cases hi

/-- What the control group, slot 3 and the tokens can do: write R and RS, then fetch a word, fetch a token, or, for a
repeat, move to slot 0 or slot 3. -/
inductive State.ControlledBy (s : State) (i : Instr) : State → Prop where
  | word (r : Word) (rs : Stack) (a : Word) : s.ControlledBy i (((s.setR r).setRS rs).fetchWord a)
  | token (r : Word) (rs : Stack) (a : Word) : s.ControlledBy i (((s.setR r).setRS rs).fetchToken a)
  | again (r : Word) (rs : Stack) (taken : Bool) (hi : isRepeat i = true) :
      s.ControlledBy i (((s.setR r).setRS rs).repeatIf taken)

namespace State.ControlledBy

variable {i : Instr} {s t : State}

theorem jumpIf (s : State) (taken : Bool) (g : PageAddr) : s.ControlledBy i (s.jumpIf taken g) := by
  rw [State.jumpIf_eq]
  exact .word s.r s.rs _

theorem callIf (s : State) (taken : Bool) (g : PageAddr) : s.ControlledBy i (s.callIf taken g) := by
  cases taken with
  | true => exact .word s.p (s.rs.push s.r) _
  | false => exact .word s.r s.rs _

theorem returnToList (s : State) : s.ControlledBy i s.returnToList := by
  have hpop : s.returnToList = ((s.setR s.rs.top).setRS s.rs.popped).fetchToken s.r := by
    rw [State.returnToList_eq, State.fetchToken_setRS, State.fetchToken_setR]
    rfl
  rw [hpop]
  exact .token _ _ _

theorem returnToCode (s : State) : s.ControlledBy i s.returnToCode := by
  have hpop : s.returnToCode = ((s.setR s.rs.top).setRS s.rs.popped).fetchWord s.r := by
    rw [State.returnToCode_eq, State.fetchWord_eq]
    rfl
  rw [hpop]
  exact .word _ _ _

/-- A, D, DS and memory, cell by cell, are none of the control group's. -/
theorem data_eq (h : s.ControlledBy i t) : t.a = s.a ∧ t.d = s.d ∧ t.ds = s.ds ∧ t.mem = s.mem := by
  cases h with
  | word r rs a =>
    rw [State.fetchWord_eq]
    exact ⟨rfl, rfl, rfl, rfl⟩
  | token r rs a =>
    obtain ⟨ha, hd, -, hds, -, hmem, -⟩ := State.fetchToken_frame ((s.setR r).setRS rs) a
    exact ⟨ha, hd, hds, hmem⟩
  | again r rs taken => exact ⟨rfl, rfl, rfl, rfl⟩

/-- Slot 0 is next after a fetch, which shows on the pins; otherwise a repeat has kept what a fetch writes. -/
theorem sequencer (h : s.ControlledBy i t) :
    t.slot = .s0 ∧ (t.bus.kind = .word ∨ t.bus.kind = .token) ∨
      isRepeat i = true ∧ (t.slot = .s0 ∨ t.slot = .s3) ∧
        t.i = s.i ∧ t.execState = s.execState ∧ t.answers = s.answers := by
  cases h with
  | word r rs a =>
    rw [State.fetchWord_eq]
    exact .inl ⟨rfl, .inl rfl⟩
  | token r rs a =>
    obtain ⟨-, -, -, -, -, -, -, hslot, hbus⟩ := State.fetchToken_frame ((s.setR r).setRS rs) a
    exact .inl ⟨hslot, .inr (congrArg BusAccess.kind hbus)⟩
  | again r rs taken hi => exact .inr ⟨hi, ite_eq_or_eq .., rfl, rfl, rfl⟩

end State.ControlledBy

open State.ControlledBy in
theorem exec_controlledBy {i : Instr} {s t : State} (hi : opSlotOf i = none) (h : exec i s = .next t) :
    s.ControlledBy i t := by
  cases i with
  | get | pop | drop | push | lit | ldri | lda | ldai | str | stri | sta | stai | swap | nop | eqz | inv | add | lsl
  | asr | lsr | overOp | dup | zero | one | nip | or | xor | and => cases hi
  | jmp g | jmpp g | jmpz g => cases h; exact jumpIf s _ g
  | jsr g | jsrn g | jsrp g | jsrz g => cases h; exact callIf s _ g
  | jmpd g =>
    cases hr : s.rNonZero with
    | true => rw [exec_jmpd_taken s g hr] at h; cases h; exact .word (s.r - 1) s.rs _
    | false => rw [exec_jmpd_not_taken s g hr] at h; cases h; exact .word s.rs.top s.rs.popped s.p
  | repd =>
    cases hr : s.rNonZero with
    | true => rw [exec_repd_taken s hr] at h; cases h; exact .again (s.r - 1) s.rs true rfl
    | false => rw [exec_repd_not_taken s hr] at h; cases h; exact .again s.rs.top s.rs.popped false rfl
  | repp | repz => cases h; exact .again s.r s.rs _ rfl
  | nxt => cases h; exact .word s.r s.rs s.p
  | ret => cases h; exact returnToCode s
  | into => cases h; exact .token s.r s.rs s.p
  | exit | tokExit => cases h; exact returnToList s
  | tokCall a => cases h; exact .word s.p (s.rs.push s.r) a
  | tokNest a => cases h; exact .token s.p (s.rs.push s.r) a

/-- Settles O14: an opcode of every slot and a repeat keep what a fetch writes, and everything else fetches. -/
theorem instructionKeptUntilNextFetch : Obligations.InstructionKeptUntilNextFetch := by
  intro s t h hword htoken
  cases hi : opSlotOf (decode s.place s.i) with
  | some k =>
    obtain ⟨-, hkept⟩ := exec_opcodeFrame hi h
    exact hkept
  | none =>
    rcases (exec_controlledBy hi h).sequencer with ⟨-, hkind⟩ | ⟨-, -, hkept⟩
    · exact absurd hkind (not_or_intro hword htoken)
    · exact hkept

end Sys2Proof.Machine
end

section
/-! That every step keeps the invariant: the decoder's part of what the sequencer does (R81, R90, R91), then the stacks
(R26, R28) and memory. -/

namespace Sys2Proof.Machine

/-! ## What the opcode bits say of the decoded instruction -/

/-- The control group is the first four opcode values (R81). -/
theorem isControl_eq (v : BitVec 5) : isControl v = decide (v.toNat < 4) := by
  revert v
  decide

/-- What holds of every opcode of slot `k`, and of the control group's instructions at their values, holds of what the
opcode map gives. -/
theorem decodeOpcode_elim {P : Instr → Prop} {k : OpSlot} {c0 c1 c2 c3 : Instr} {v : BitVec 5}
    (hop : isControl v = false → ∀ i, opSlotOf i = some k → P i) (h0 : P c0)
    (hc : v ≠ 0 → P c1 ∧ P c2 ∧ P c3) : P (decodeOpcode k c0 c1 c2 c3 v) := by
  rw [isControl_eq, decide_eq_false_iff_not] at hop
  have hne {n : Nat} (hv : v.toNat = n + 1) : v ≠ 0 := by
    rintro rfl
    cases hv
  unfold decodeOpcode
  split
  case h_1 => exact h0
  case h_2 hv => exact (hc (hne hv)).1
  case h_3 hv => exact (hc (hne hv)).2.1
  case h_4 hv => exact (hc (hne hv)).2.2
  case h_32 => exact hop (by simp only [imp_false] at *; omega) _ rfl
  all_goals exact hop (by omega) _ rfl

/-- A repeat stands in the control group. -/
theorem opSlotOf_eq_none_of_isRepeat {i : Instr} (h : isRepeat i = true) : opSlotOf i = none := by
  cases i with
  | repd | repp | repz => rfl
  | _ => cases h

/-- `i` is what the word `w` can hold at a place: an opcode of a slot only in that slot and with opcode bits outside the
control group, a repeat only in slot 2 and with opcode bits that are not all zero. -/
def PlacedIn (pl : Place) (w : Word) (i : Instr) : Prop :=
  (∀ k, opSlotOf i = some k → pl = .code k.toSlot ∧ isControl (opBits w k) = false) ∧
    (isRepeat i = true → pl = .code .s2 ∧ opBits w .s2 ≠ 0)

namespace PlacedIn

variable {pl : Place} {w : Word} {i : Instr} {k : OpSlot}

theorem opcode (hv : isControl (opBits w k) = false) (i : Instr) (hi : opSlotOf i = some k) :
    PlacedIn (.code k.toSlot) w i := by
  refine ⟨fun k' hk' => ?_, fun hrep => ?_⟩
  · cases hi.symm.trans hk'
    exact ⟨rfl, hv⟩
  · cases hi.symm.trans (opSlotOf_eq_none_of_isRepeat hrep)

theorem jump (hi : opSlotOf i = none) (hr : isRepeat i = false) : PlacedIn pl w i :=
  ⟨fun _ hk => absurd (hi.symm.trans hk) nofun, fun hrep => absurd (hr.symm.trans hrep) nofun⟩

theorem repeating (hi : opSlotOf i = none) (hv : opBits w .s2 ≠ 0) : PlacedIn (.code .s2) w i :=
  ⟨fun _ hk => absurd (hi.symm.trans hk) nofun, fun _ => ⟨rfl, hv⟩⟩

end PlacedIn

open PlacedIn in
/-- Slots 0 and 1 hold the jumps or the calls in the control group. -/
theorem decodeSlot01_placedIn {w : Word} (k : OpSlot) (g : PageAddr) (s3 : Bool) :
    PlacedIn (.code k.toSlot) w (decodeSlot01 k g s3 (opBits w k)) := by
  cases s3 with
  | true => exact decodeOpcode_elim opcode (jump rfl rfl) fun _ => ⟨jump rfl rfl, jump rfl rfl, jump rfl rfl⟩
  | false => exact decodeOpcode_elim opcode (jump rfl rfl) fun _ => ⟨jump rfl rfl, jump rfl rfl, jump rfl rfl⟩

open PlacedIn in
theorem decode_placedIn (pl : Place) (w : Word) : PlacedIn pl w (decode pl w) := by
  match pl with
  | .code .s0 => exact decodeSlot01_placedIn .s0 _ _
  | .code .s1 => exact decodeSlot01_placedIn .s1 _ _
  | .code .s2 =>
    refine decodeOpcode_elim (k := .s2) opcode ?_ fun hv => ⟨repeating rfl hv, repeating rfl hv, repeating rfl hv⟩
    cases slot3Bit w <;> exact jump rfl rfl
  | .code .s3 => simp only [decode]; split <;> exact jump rfl rfl
  | .list => simp only [decode, decodeToken]; split_ifs <;> exact jump rfl rfl

/-! ## The slots a step leads to -/

theorem State.slotReached_of_s0 {s : State} (h : s.slot = .s0) : s.slotReached = true := by
  simp only [State.slotReached, h]
  cases s.execState <;> rfl

theorem State.place_eq_code {s : State} {k : Slot} (h : s.place = .code k) : s.execState = .code ∧ s.slot = k := by
  simp only [State.place] at h
  cases hstate : s.execState with
  | list => simp [hstate] at h
  | code => simpa [hstate] using h

/-- After an opcode outside the control group the next slot is reached (R90, R91). -/
theorem State.slotReached_nextSlot {s t : State} {k : OpSlot} (hs : s.slotReached = true)
    (hpl : s.place = .code k.toSlot) (hv : isControl (opBits s.i k) = false) (ht : s.opcodeFrame t k) :
    t.slotReached = true := by
  obtain ⟨hstate, hslot⟩ := State.place_eq_code hpl
  obtain ⟨hslot', hi, hstate', -⟩ := ht
  have hne : opBits s.i k ≠ 0#5 := by
    intro h0
    rw [h0] at hv
    cases hv
  simp only [State.slotReached, hstate, hslot] at hs
  simp only [State.slotReached, hstate', hstate, hslot', hi]
  cases k with
  | s0 => simpa [OpSlot.toSlot, nextSlot] using hv
  | s1 => simpa [OpSlot.toSlot, nextSlot, hv] using hs
  | s2 => simpa [OpSlot.toSlot, nextSlot, hv, hne] using hs

/-- After a repeat that ends, slot 3 is reached: slot 2 is neither `into` nor `exit` (R91). -/
theorem State.slotReached_repeat {s t : State} (hs : s.slotReached = true) (hpl : s.place = .code .s2)
    (hv : opBits s.i .s2 ≠ 0#5) (hslot' : t.slot = .s0 ∨ t.slot = .s3) (hi : t.i = s.i)
    (hstate' : t.execState = s.execState) : t.slotReached = true := by
  obtain ⟨hstate, hslot⟩ := State.place_eq_code hpl
  rcases hslot' with h0 | h3
  · exact State.slotReached_of_s0 h0
  · simp only [State.slotReached, hstate, hslot] at hs
    simpa [State.slotReached, hstate', hstate, h3, hi, hv] using hs

theorem step_slotReached {s t : State} (hs : s.slotReached = true) (h : step s = .next t) : t.slotReached = true := by
  obtain ⟨hopcode, hrepeat⟩ := decode_placedIn s.place s.i
  cases hi : opSlotOf (decode s.place s.i) with
  | some k =>
    obtain ⟨hpl, hv⟩ := hopcode k hi
    exact State.slotReached_nextSlot hs hpl hv (exec_opcodeFrame hi h)
  | none =>
    rcases (exec_controlledBy hi h).sequencer with ⟨hslot, -⟩ | ⟨hrep, hslot, hi, hstate, -⟩
    · exact State.slotReached_of_s0 hslot
    · obtain ⟨hpl, hv⟩ := hrepeat hrep
      exact State.slotReached_repeat hs hpl hv hslot hi hstate

/-! ## Stacks and memory -/

theorem Stack.Touched.wf {st st' : Stack} {v : Word} (h : st.Touched v st') (hst : st.wf = true) : st'.wf = true := by
  cases h with
  | kept => exact hst
  | pushed => exact Stack.push_wf v hst
  | popped => exact Stack.popped_wf hst

/-- An instruction writes at most one word of memory (R55). -/
theorem exec_mem {i : Instr} {s t : State} (h : exec i s = .next t) :
    t.mem = s.mem ∨ ∃ a v, t.mem = s.writtenMem a v := by
  cases hi : opSlotOf i with
  | none =>
    obtain ⟨-, -, -, hmem⟩ := (exec_controlledBy hi h).data_eq
    exact .inl hmem
  | some k =>
    cases i with
    | str | stri => cases h; exact .inr ⟨s.r, s.d, rfl⟩
    | sta | stai => cases h; exact .inr ⟨s.a, s.d, rfl⟩
    | get | pop | drop | push | lit | ldri | lda | ldai | swap | nop | eqz | inv | add | lsl | asr | lsr | overOp
    | dup | zero | one | nip | or | xor | and => cases h; exact .inl rfl
    | jmp | jmpd | jmpp | jmpz | jsr | jsrn | jsrp | jsrz | into | exit | repd | repp | repz | nxt | ret | tokExit
    | tokCall | tokNest => cases hi

theorem exec_mem_wf {i : Instr} {s t : State} (hs : s.mem.wf = true) (h : exec i s = .next t) : t.mem.wf = true := by
  rcases exec_mem h with hmem | ⟨a, v, hmem⟩
  · rw [hmem]
    exact hs
  · rw [hmem]
    exact State.writtenMem_wf a v hs

/-- Settles O8, a part of the invariant at a time. -/
theorem stepKeepsInvariant : Obligations.StepKeepsInvariant := by
  intro s t ⟨hds, hrs, hmem, hslot⟩ h
  obtain ⟨htds, htrs⟩ := exec_stacksTouched (i := decode s.place s.i) h
  exact ⟨htds.wf hds, htrs.wf hrs, exec_mem_wf hmem h, step_slotReached hslot h⟩

/-- Settles O9: the reset stacks have cells and an index that names one, and memory lists nothing. -/
theorem resetMeetsInvariant : Obligations.ResetMeetsInvariant :=
  ⟨Stack.reset_wf (by decide), Stack.reset_wf (by decide), State.reset_mem_wf, State.slotReached_of_s0 rfl⟩

end Sys2Proof.Machine
end

section
/-! The stack memory as the circular list of R30: what pushes and pops, one or many, do to `Stack.toList`. -/

namespace Sys2Proof.Machine

namespace Stack

variable {st : Stack}

theorem wf_iff : st.wf = true ↔ st.index < st.depth := decide_eq_true_iff

/-! ## One cell of the list view -/

/-- Counting `k` cells down from a wrapped index is counting down from the index and wrapping then. -/
theorem mod_add_sub_mod (x n k : Nat) (hk : k ≤ n) : (x % n + n - k) % n = (x + n - k) % n := by
  rw [Nat.add_sub_assoc hk, Nat.add_sub_assoc hk, Nat.mod_add_mod]

theorem nthNewest_zero (h : st.wf = true) : st.nthNewest 0 = st.top := by
  rw [nthNewest, top, Nat.sub_zero, Nat.add_mod_right, Nat.mod_eq_of_lt (wf_iff.mp h)]

/-- The list view closes on itself: past the oldest cell comes the newest (R27). -/
theorem nthNewest_depth (st : Stack) : st.nthNewest st.depth = st.nthNewest 0 := by
  rw [nthNewest, nthNewest, Nat.add_sub_cancel, Nat.sub_zero, Nat.add_mod_right]

/-- The `k`-th newest place after a pop was the one after it before. -/
theorem popped_index_sub {k : Nat} (hk : k < st.depth) :
    (st.popped.index + st.depth - k) % st.depth = (st.index + st.depth - (k + 1)) % st.depth := by
  calc (st.popped.index + st.depth - k) % st.depth
    _ = (st.index + st.depth - 1 + st.depth - k) % st.depth := mod_add_sub_mod _ _ _ hk.le
    _ = (st.index + st.depth - (k + 1) + st.depth) % st.depth := by congr 1; omega
    _ = (st.index + st.depth - (k + 1)) % st.depth := Nat.add_mod_right _ _

theorem nthNewest_popped {k : Nat} (hk : k < st.depth) : st.popped.nthNewest k = st.nthNewest (k + 1) := by
  rw [nthNewest, nthNewest, popped_depth, popped_index_sub hk]
  rfl

/-- No other cell of the list view is the one a push writes. -/
theorem push_index_ne {k : Nat} (hk : k + 1 < st.depth) :
    (st.index + 1) % st.depth ≠ (st.index + st.depth - k) % st.depth := by
  intro heq
  rw [Nat.add_sub_assoc (by omega)] at heq
  have hmod : 1 % st.depth = (st.depth - k) % st.depth := Nat.ModEq.add_left_cancel' st.index heq
  rw [Nat.mod_eq_of_lt (by omega)] at hmod
  rcases k.eq_zero_or_pos with rfl | hpos
  · rw [Nat.sub_zero, Nat.mod_self] at hmod
    omega
  · rw [Nat.mod_eq_of_lt (by omega)] at hmod
    omega

theorem nthNewest_push_succ {k : Nat} (v : Word) (hk : k + 1 < st.depth) :
    (st.push v).nthNewest (k + 1) = st.nthNewest k := by
  have hindex : ((st.push v).index + st.depth - (k + 1)) % st.depth = (st.index + st.depth - k) % st.depth := by
    calc ((st.push v).index + st.depth - (k + 1)) % st.depth
      _ = (st.index + 1 + st.depth - (k + 1)) % st.depth := mod_add_sub_mod _ _ _ hk.le
      _ = (st.index + st.depth - k) % st.depth := by congr 1; omega
  rw [nthNewest, push_depth, hindex]
  simp only [push, nthNewest, List.getD_eq_getElem?_getD, List.getElem?_set_ne (push_index_ne hk)]

/-! ## The list view from its two ends -/

theorem toList_eq_cons {n : Nat} (hn : st.depth = n + 1) :
    st.toList = st.nthNewest 0 :: (List.range n).map fun k => st.nthNewest (k + 1) := by
  rw [toList, hn, List.range_succ_eq_map, List.map_cons, List.map_map]
  rfl

theorem toList_eq_concat {n : Nat} (hn : st.depth = n + 1) :
    st.toList = (List.range n).map st.nthNewest ++ [st.nthNewest n] := by
  rw [toList, hn, List.range_succ, List.map_append]
  rfl

theorem exists_depth_eq_succ (h : st.wf = true) : ∃ n, st.depth = n + 1 :=
  Nat.exists_eq_succ_of_ne_zero (Nat.ne_zero_of_lt (wf_iff.mp h))

/-- A push puts the word in front and loses the oldest cell (R30). -/
theorem toList_push (v : Word) (h : st.wf = true) : (st.push v).toList = v :: st.toList.dropLast := by
  obtain ⟨n, hn⟩ := exists_depth_eq_succ h
  have hfront : (st.push v).nthNewest 0 = v := by rw [nthNewest_zero (push_wf v h), top_push v h]
  have hrest : (List.range n).map (fun k => (st.push v).nthNewest (k + 1)) = (List.range n).map st.nthNewest :=
    List.map_congr_left fun k hk => nthNewest_push_succ v (by have := List.mem_range.mp hk; omega)
  rw [toList_eq_cons ((st.push_depth v).trans hn), hfront, hrest, toList_eq_concat hn, List.dropLast_concat]

theorem toList_eq_top_cons (h : st.wf = true) : st.toList = st.top :: st.toList.tail := by
  obtain ⟨n, hn⟩ := exists_depth_eq_succ h
  rw [toList_eq_cons hn, nthNewest_zero h, List.tail_cons]

/-- A pop moves the newest cell to the end (R27, R30). -/
theorem toList_popped (h : st.wf = true) : st.popped.toList = st.toList.tail ++ [st.top] := by
  obtain ⟨n, hn⟩ := exists_depth_eq_succ h
  have hrest : (List.range n).map st.popped.nthNewest = (List.range n).map fun k => st.nthNewest (k + 1) :=
    List.map_congr_left fun k hk => nthNewest_popped (by have := List.mem_range.mp hk; omega)
  have hlast : st.popped.nthNewest n = st.top := by
    rw [nthNewest_popped (by omega), ← hn, nthNewest_depth, nthNewest_zero h]
  rw [toList_eq_concat (st.popped_depth.trans hn), hrest, hlast, toList_eq_cons hn, List.tail_cons]

/-! ## Many pushes, many pops -/

/-- Losing the last word of a list shows only past its length. -/
theorem take_append_cons_dropLast {L : List Word} (front : List Word) (v : Word) (hL : L ≠ []) :
    (front ++ v :: L.dropLast).take L.length = (front ++ v :: L).take L.length := by
  rw [← List.dropLast_cons_of_ne_nil hL, ← List.dropLast_append_of_ne_nil (List.cons_ne_nil v L),
    List.dropLast_eq_take, List.take_take]
  congr 1
  simp

@[simp] theorem pushAll_depth (st : Stack) (vs : List Word) : (st.pushAll vs).depth = st.depth := by
  induction vs generalizing st with
  | nil => rfl
  | cons v vs ih => exact (ih (st.push v)).trans (st.push_depth v)

theorem pushAll_wf (vs : List Word) (h : st.wf = true) : (st.pushAll vs).wf = true := by
  induction vs generalizing st with
  | nil => exact h
  | cons v vs ih => exact ih (push_wf v h)

/-- The stack holds the newest `N` of all the words it was given, those it held before among them. -/
theorem toList_pushAll (vs : List Word) (h : st.wf = true) :
    (st.pushAll vs).toList = (vs.reverse ++ st.toList).take st.depth := by
  induction vs generalizing st with
  | nil => exact (List.take_of_length_le st.toList_length.le).symm
  | cons v vs ih =>
    have hne : st.toList ≠ [] := by rw [toList_eq_top_cons h]; exact List.cons_ne_nil _ _
    calc (st.pushAll (v :: vs)).toList
      _ = (vs.reverse ++ v :: st.toList.dropLast).take st.depth := by
        rw [pushAll, ih (push_wf v h), push_depth, toList_push v h]
      _ = (vs.reverse ++ v :: st.toList).take st.depth := by
        rw [← st.toList_length, take_append_cons_dropLast _ _ hne]
      _ = ((v :: vs).reverse ++ st.toList).take st.depth := by
        rw [List.reverse_cons, List.append_assoc, List.singleton_append]

/-- The pops return the list view from its front. -/
theorem popMany_fst {n : Nat} (h : st.wf = true) (hn : n ≤ st.depth) : (popMany n st).1 = st.toList.take n := by
  induction n generalizing st with
  | zero => rfl
  | succ n ih =>
    have htail : n ≤ st.toList.tail.length := by
      rw [List.length_tail, st.toList_length]
      omega
    calc (popMany (n + 1) st).1
      _ = st.top :: (st.toList.tail ++ [st.top]).take n := by
        rw [popMany, ih (popped_wf h) (by rw [popped_depth]; omega), toList_popped h]
      _ = st.top :: st.toList.tail.take n := by rw [List.take_append_of_le_length htail]
      _ = st.toList.take (n + 1) := by rw [← List.take_succ_cons, ← toList_eq_top_cons h]

/-- Pops move the index down and leave every cell as it is. -/
theorem popMany_snd {n : Nat} (h : st.wf = true) (hn : n ≤ st.depth) :
    (popMany n st).2 = ⟨st.cells, (st.index + st.depth - n) % st.depth⟩ := by
  induction n generalizing st with
  | zero => rw [Nat.sub_zero, Nat.add_mod_right, Nat.mod_eq_of_lt (wf_iff.mp h)]; rfl
  | succ n ih =>
    rw [popMany, ih (popped_wf h) (Nat.le_of_lt hn), popped_depth, popped_index_sub hn]
    rfl

end Stack

/-- Settles O22. -/
theorem stackIsACircularList : Obligations.StackIsACircularList :=
  fun _ v h => ⟨Stack.toList_push v h, Stack.toList_eq_top_cons h, Stack.toList_popped h⟩

/-- Settles O23: the stack ends with the pushed words in front, and the pops return that front. -/
theorem pushesThenPopsReverse : Obligations.PushesThenPopsReverse := by
  intro st vs h hlen
  rw [Stack.popMany_fst (Stack.pushAll_wf vs h) (by rwa [Stack.pushAll_depth]), Stack.toList_pushAll vs h,
    List.take_take, Nat.min_eq_left hlen]
  exact List.take_left' vs.length_reverse

/-- Settles O24: the words held before are past the first `N`. -/
theorem onlyLastPushesSurvive : Obligations.OnlyLastPushesSurvive := by
  intro st vs h hlen
  rw [Stack.toList_pushAll vs h, List.take_append_of_le_length (by rwa [List.length_reverse])]

/-- Settles O25: `N` pops return the first `N` words of the list view, which is all of it, and turn the index once. -/
theorem popsCycleThroughTheCells : Obligations.PopsCycleThroughTheCells := by
  intro st h
  have hwords : (Stack.popMany st.depth st).1 = st.toList := by
    rw [Stack.popMany_fst h le_rfl, ← st.toList_length, List.take_length]
  have hstack : (Stack.popMany st.depth st).2 = st := by
    rw [Stack.popMany_snd h le_rfl, Nat.add_sub_cancel, Nat.mod_eq_of_lt (Stack.wf_iff.mp h)]
  exact Prod.ext hwords hstack

end Sys2Proof.Machine
end

section
/-! The tables of R21 to R25, R31 and R35: which instruction touches which stack memory and writes which register. -/

namespace Sys2Proof.Machine

/-! ## The conditions of R110 as the tables write them -/

theorem State.rNonZero_eq (s : State) : s.rNonZero = decide (s.r ≠ 0) := by
  rw [Bool.eq_iff_iff, State.rNonZero, bne_iff_ne, decide_eq_true_iff]

theorem State.aPositive_eq (s : State) : s.aPositive = decide (s.a.toNat < 32768) := by
  have hmsb : s.a.getLsbD 15 = decide (32768 ≤ s.a.toNat) := s.a.msb_eq_getLsbD_last.symm.trans s.a.msb_eq_decide
  rw [State.aPositive, hmsb, ← decide_not]
  exact decide_eq_decide.mpr Nat.not_le

theorem State.aZero_eq (s : State) : s.aZero = decide (s.a = 0) := rfl

theorem rsUse_jmpd (s : State) (g : PageAddr) :
    rsUse (.jmpd g) s = if s.rNonZero then .untouched else .pops := by simp [rsUse, State.rNonZero_eq]

theorem rsUse_repd (s : State) : rsUse .repd s = if s.rNonZero then .untouched else .pops := by
  simp [rsUse, State.rNonZero_eq]

/-! ## The stack memories (R31) -/

/-- What `use` asks of a stack memory that was `st`, under a register that held `v`: the stack after is `st'`, the
register after holds `v'`. -/
def StackUse.Meets (use : StackUse) (st : Stack) (v : Word) (st' : Stack) (v' : Word) : Prop :=
  match use with
  | .untouched => st' = st
  | .pushes => st' = st.push v
  | .pops => st' = st.popped ∧ v' = st.top

/-- Settles O19: the control group leaves DS alone, and of the other opcodes each is a pusher, a popper or neither. -/
theorem dataStackTouchedOnlyByTable : Obligations.DataStackTouchedOnlyByTable := by
  intro i s t h
  show (dsUse i).Meets s.ds s.d t.ds t.d
  cases i with
  | get | pop | lit | ldri | lda | ldai | overOp | dup | zero | one => cases h; exact rfl
  | drop | push | str | stri | sta | stai | nip | or | xor | and => cases h; exact ⟨rfl, rfl⟩
  | swap | nop | eqz | inv | add | lsl | asr | lsr => cases h; exact rfl
  | jmp | jmpd | jmpp | jmpz | jsr | jsrn | jsrp | jsrz | into | exit | repd | repp | repz | nxt | ret | tokExit
  | tokCall | tokNest =>
    obtain ⟨-, -, hds, -⟩ := (exec_controlledBy rfl h).data_eq
    exact hds

/-- From `s` to `t`, RS and R are used as `use` says. -/
def State.UsesRS (s t : State) (use : StackUse) : Prop := use.Meets s.rs s.r t.rs t.r

namespace State.UsesRS

variable {s t : State} {use : StackUse}

theorem refl (s : State) : s.UsesRS s .untouched := rfl

theorem fetchWord (a : Word) (h : s.UsesRS t use) : s.UsesRS (t.fetchWord a) use := by
  obtain ⟨-, hr, hrs⟩ := t.fetchWord_frame a
  rwa [State.UsesRS, hr, hrs]

theorem fetchToken (a : Word) (h : s.UsesRS t use) : s.UsesRS (t.fetchToken a) use := by
  obtain ⟨-, hr, hrs⟩ := t.fetchToken_data a
  rwa [State.UsesRS, hr, hrs]

theorem jumpIf (s : State) (taken : Bool) (g : PageAddr) : s.UsesRS (s.jumpIf taken g) .untouched := by
  rw [State.jumpIf_eq]
  exact (refl s).fetchWord _

theorem link (s : State) : s.UsesRS s.link .pushes := rfl

theorem popRSToR (s : State) : s.UsesRS s.popRSToR .pops := ⟨rfl, rfl⟩

/-- A call uses RS only when taken. -/
theorem callIf (s : State) (taken : Bool) (g : PageAddr) :
    s.UsesRS (s.callIf taken g) (if taken then .pushes else .untouched) := by
  cases taken with
  | true => exact (link s).fetchWord _
  | false => exact (refl s).fetchWord _

theorem returnToList (s : State) : s.UsesRS s.returnToList .pops := by
  rw [State.returnToList_eq]
  exact ⟨rfl, rfl⟩

theorem returnToCode (s : State) : s.UsesRS s.returnToCode .pops := by
  rw [State.returnToCode_eq]
  exact ⟨rfl, rfl⟩

end State.UsesRS

open State.UsesRS in
/-- Settles O20, with the conditions of `jmpd`, `repd` and the calls as the model tests them. -/
theorem returnStackTouchedOnlyByTable : Obligations.ReturnStackTouchedOnlyByTable := by
  intro i s t h
  show s.UsesRS t (rsUse i s)
  cases i with
  | pop => cases h; exact ⟨rfl, rfl⟩
  | push => cases h; exact rfl
  | get | drop | lit | ldri | lda | ldai | str | stri | sta | stai | swap | nop | eqz | inv | add | lsl | asr | lsr
  | overOp | dup | zero | one | nip | or | xor | and => cases h; exact rfl
  | jmp g | jmpp g | jmpz g => cases h; exact jumpIf s _ g
  | jsr g => cases h; exact callIf s true g
  | jsrn g => cases h; simpa [State.rNonZero_eq, rsUse] using callIf s s.rNonZero g
  | jsrp g => cases h; simpa [State.aPositive_eq, rsUse] using callIf s s.aPositive g
  | jsrz g => cases h; simpa [State.aZero_eq, rsUse] using callIf s s.aZero g
  | jmpd g =>
    rw [rsUse_jmpd]
    cases hr : s.rNonZero with
    | true => rw [exec_jmpd_taken s g hr] at h; cases h; exact fetchWord _ rfl
    | false => rw [exec_jmpd_not_taken s g hr] at h; cases h; exact (popRSToR s).fetchWord _
  | repd =>
    rw [rsUse_repd]
    cases hr : s.rNonZero with
    | true => rw [exec_repd_taken s hr] at h; cases h; exact rfl
    | false => rw [exec_repd_not_taken s hr] at h; cases h; exact popRSToR s
  | repp | repz => cases h; exact rfl
  | nxt => cases h; exact (refl s).fetchWord s.p
  | ret => cases h; exact returnToCode s
  | into => cases h; exact (refl s).fetchToken s.p
  | exit | tokExit => cases h; exact returnToList s
  | tokCall a => cases h; exact (link s).fetchWord a
  | tokNest a => cases h; exact (link s).fetchToken a

/-! ## The registers (R21, R22, R24, R35) -/

theorem exec_a_eq {i : Instr} {s t : State} (h : exec i s = .next t) (hi : writesA i = false) : t.a = s.a := by
  cases i with
  | get | pop | drop | push | ldai | stai | swap | eqz | inv | add | lsl | asr | lsr | overOp | zero | one | or | xor
  | and => cases hi
  | nop | dup | nip | lit | ldri | lda | str | stri | sta => cases h; rfl
  | jmp | jmpd | jmpp | jmpz | jsr | jsrn | jsrp | jsrz | into | exit | repd | repp | repz | nxt | ret | tokExit
  | tokCall | tokNest =>
    obtain ⟨ha, -⟩ := (exec_controlledBy rfl h).data_eq
    exact ha

theorem exec_d_eq {i : Instr} {s t : State} (h : exec i s = .next t) (hi : writesD i = false) : t.d = s.d := by
  cases i with
  | get | pop | drop | push | lit | ldri | lda | ldai | str | stri | sta | stai | swap | add | lsl | asr | lsr
  | overOp | dup | zero | one | nip | or | xor | and => cases hi
  | nop | eqz | inv => cases h; rfl
  | jmp | jmpd | jmpp | jmpz | jsr | jsrn | jsrp | jsrz | into | exit | repd | repp | repz | nxt | ret | tokExit
  | tokCall | tokNest =>
    obtain ⟨-, hd, -⟩ := (exec_controlledBy rfl h).data_eq
    exact hd

theorem exec_r_eq {i : Instr} {s t : State} (h : exec i s = .next t) (hi : writesR i = false) : t.r = s.r := by
  cases i with
  | pop | push | ldri | stri | jmpd | jsr | jsrn | jsrp | jsrz | exit | repd | ret | tokExit | tokCall | tokNest =>
    cases hi
  | get | drop | lit | lda | ldai | str | sta | stai | swap | nop | eqz | inv | add | lsl | asr | lsr | overOp | dup
  | zero | one | nip | or | xor | and | repp | repz => cases h; rfl
  | jmp g | jmpp g | jmpz g =>
    cases h
    rw [State.jumpIf_eq, State.fetchWord_eq]
  | nxt => cases h; rw [State.fetchWord_eq]
  | into =>
    cases h
    obtain ⟨-, hr, -⟩ := s.fetchToken_data s.p
    exact hr

theorem exec_p_eq {i : Instr} {s t : State} (h : exec i s = .next t) (hi : writesP i = false) : t.p = s.p := by
  cases i with
  | lit | jmp | jmpd | jmpp | jmpz | jsr | jsrn | jsrp | jsrz | into | exit | nxt | ret | tokExit | tokCall
  | tokNest => cases hi
  | get | pop | drop | push | ldri | lda | ldai | str | stri | sta | stai | swap | nop | eqz | inv | add | lsl | asr
  | lsr | overOp | dup | zero | one | nip | or | xor | and | repp | repz => cases h; rfl
  | repd =>
    cases hr : s.rNonZero with
    | true => rw [exec_repd_taken s hr] at h; cases h; rfl
    | false => rw [exec_repd_not_taken s hr] at h; cases h; rfl

/-- Settles O21, a register at a time. -/
theorem registersWrittenOnlyByTheirWriters : Obligations.RegistersWrittenOnlyByTheirWriters :=
  fun _ _ _ h => ⟨exec_a_eq h, exec_d_eq h, exec_r_eq h, exec_p_eq h⟩

end Sys2Proof.Machine
end

section
/-! That no step shows a hidden stack index (R26, R28): two stack memories with the same list view return the same words
and stay alike, and nothing else a step does looks at them. -/

namespace Sys2Proof.Machine

/-- Two stack memories of the same list view, each with an index that names a cell. -/
def Stack.Alike (st st' : Stack) : Prop := st.wf = true ∧ st'.wf = true ∧ st.toList = st'.toList

namespace Stack.Alike

variable {st st' : Stack}

theorem toList_eq (h : st.Alike st') : st.toList = st'.toList := by
  obtain ⟨-, -, hlist⟩ := h
  exact hlist

theorem top_eq (h : st.Alike st') : st.top = st'.top := by
  obtain ⟨hst, hst', hlist⟩ := h
  rw [toList_eq_top_cons hst, toList_eq_top_cons hst'] at hlist
  exact List.head_eq_of_cons_eq hlist

theorem toList_push (v : Word) (h : st.Alike st') : (st.push v).toList = (st'.push v).toList := by
  obtain ⟨hst, hst', hlist⟩ := h
  rw [Stack.toList_push v hst, Stack.toList_push v hst', hlist]

theorem toList_popped (h : st.Alike st') : st.popped.toList = st'.popped.toList := by
  have htop := h.top_eq
  obtain ⟨hst, hst', hlist⟩ := h
  rw [Stack.toList_popped hst, Stack.toList_popped hst', hlist, htop]

end Stack.Alike

/-- `s` with other stack memories. -/
def State.withStacks (s : State) (ds rs : Stack) : State := (s.setDS ds).setRS rs

namespace State

variable {s t : State} {ds rs : Stack}

theorem fetchToken_withStacks (s : State) (a : Word) (ds rs : Stack) :
    (s.withStacks ds rs).fetchToken a = (s.fetchToken a).withStacks ds rs := by
  rw [withStacks, fetchToken_setRS, fetchToken_setDS, withStacks]

namespace sameButIndex

theorem eq_withStacks (h : s.sameButIndex t) : t = s.withStacks t.ds t.rs := by
  obtain ⟨hdata, hreturn, hp, hi, hstate, hslot, hmem, hdevices, hanswers, hbus⟩ := h
  obtain ⟨ha, hdata⟩ := List.cons.inj hdata
  obtain ⟨hd, -⟩ := List.cons.inj hdata
  obtain ⟨hr, -⟩ := List.cons.inj hreturn
  cases t
  cases ha; cases hd; cases hr; cases hp; cases hi; cases hstate; cases hslot; cases hmem; cases hdevices
  cases hanswers; cases hbus
  rfl

theorem toList_ds (h : s.sameButIndex t) : s.ds.toList = t.ds.toList := by
  obtain ⟨hdata, -⟩ := h
  exact congrArg (List.drop 2) hdata

theorem toList_rs (h : s.sameButIndex t) : s.rs.toList = t.rs.toList := by
  obtain ⟨-, hreturn, -⟩ := h
  exact congrArg List.tail hreturn

theorem p_eq (h : s.sameButIndex t) : s.p = t.p := by
  obtain ⟨-, -, hp, -⟩ := h
  exact hp

/-- Machines that differ at most in D, R and the stacks are alike when these are. -/
theorem of_updated (ht : t = { s with d := t.d, r := t.r, ds := t.ds, rs := t.rs }) (hd : s.d = t.d) (hr : s.r = t.r)
    (hds : s.ds.toList = t.ds.toList) (hrs : s.rs.toList = t.rs.toList) : s.sameButIndex t := by
  have hdata : s.dataStack = t.dataStack := by
    rw [dataStack, dataStack, congrArg State.a ht, hd, hds]
  have hreturn : s.returnStack = t.returnStack := by rw [returnStack, returnStack, hr, hrs]
  refine ⟨hdata, hreturn, ?_⟩
  rw [ht]
  exact ⟨rfl, rfl, rfl, rfl, rfl, rfl, rfl, rfl⟩

theorem fetchWord (a : Word) (h : s.sameButIndex t) : (s.fetchWord a).sameButIndex (t.fetchWord a) := by
  rw [h.eq_withStacks, fetchWord_eq, fetchWord_eq]
  exact of_updated rfl rfl rfl h.toList_ds h.toList_rs

theorem fetchToken (a : Word) (h : s.sameButIndex t) : (s.fetchToken a).sameButIndex (t.fetchToken a) := by
  rw [h.eq_withStacks, fetchToken_withStacks]
  refine of_updated rfl rfl rfl ?_ ?_
  · rw [fetchToken_ds]
    exact h.toList_ds
  · rw [fetchToken_rs]
    exact h.toList_rs

theorem link (h : s.sameButIndex t) (hrs : s.rs.Alike t.rs) : s.link.sameButIndex t.link := by
  rw [h.eq_withStacks]
  exact of_updated rfl rfl rfl h.toList_ds (hrs.toList_push s.r)

theorem popRSToR (h : s.sameButIndex t) (hrs : s.rs.Alike t.rs) : s.popRSToR.sameButIndex t.popRSToR := by
  rw [h.eq_withStacks]
  exact of_updated rfl rfl hrs.top_eq h.toList_ds hrs.toList_popped

theorem jumpIf (taken : Bool) (g : PageAddr) (h : s.sameButIndex t) :
    (s.jumpIf taken g).sameButIndex (t.jumpIf taken g) := by
  have hp := h.p_eq
  rw [jumpIf_eq, jumpIf_eq, hp]
  exact h.fetchWord _

theorem callIf (taken : Bool) (g : PageAddr) (h : s.sameButIndex t) (hrs : s.rs.Alike t.rs) :
    (s.callIf taken g).sameButIndex (t.callIf taken g) := by
  have hp := h.p_eq
  rw [callIf_eq, callIf_eq, hp]
  cases taken with
  | true => exact (h.link hrs).fetchWord _
  | false => exact h.fetchWord _

end sameButIndex

open sameButIndex in
/-- An instruction answers alike on two machines that differ at most in alike stack memories. -/
theorem exec_withStacks (i : Instr) (hds : s.ds.Alike ds) (hrs : s.rs.Alike rs) :
    ∃ s' t', exec i s = .next s' ∧ exec i (s.withStacks ds rs) = .next t' ∧ s'.sameButIndex t' := by
  have h : s.sameButIndex (s.withStacks ds rs) := of_updated rfl rfl rfl hds.toList_eq hrs.toList_eq
  cases i with
  | get | lit | ldri | lda | ldai | overOp | dup | zero | one =>
    exact ⟨_, _, rfl, rfl, of_updated rfl rfl rfl (hds.toList_push s.d) hrs.toList_eq⟩
  | pop => exact ⟨_, _, rfl, rfl, of_updated rfl rfl hrs.top_eq (hds.toList_push s.d) hrs.toList_popped⟩
  | drop | str | stri | sta | stai | nip | or | xor | and =>
    exact ⟨_, _, rfl, rfl, of_updated rfl hds.top_eq rfl hds.toList_popped hrs.toList_eq⟩
  | push => exact ⟨_, _, rfl, rfl, of_updated rfl hds.top_eq rfl hds.toList_popped (hrs.toList_push s.r)⟩
  | swap | nop | eqz | inv | add | lsl | asr | lsr =>
    exact ⟨_, _, rfl, rfl, of_updated rfl rfl rfl hds.toList_eq hrs.toList_eq⟩
  | jmp g => exact ⟨_, _, rfl, rfl, h.jumpIf true g⟩
  | jmpp g => exact ⟨_, _, rfl, rfl, h.jumpIf s.aPositive g⟩
  | jmpz g => exact ⟨_, _, rfl, rfl, h.jumpIf s.aZero g⟩
  | jsr g => exact ⟨_, _, rfl, rfl, h.callIf true g hrs⟩
  | jsrn g => exact ⟨_, _, rfl, rfl, h.callIf s.rNonZero g hrs⟩
  | jsrp g => exact ⟨_, _, rfl, rfl, h.callIf s.aPositive g hrs⟩
  | jsrz g => exact ⟨_, _, rfl, rfl, h.callIf s.aZero g hrs⟩
  | jmpd g =>
    cases hr : s.rNonZero with
    | true =>
      have hcounted : (s.setR (s.r - 1)).sameButIndex ((s.withStacks ds rs).setR (s.r - 1)) :=
        of_updated rfl rfl rfl hds.toList_eq hrs.toList_eq
      exact ⟨_, _, exec_jmpd_taken s g hr, exec_jmpd_taken _ g hr, hcounted.fetchWord _⟩
    | false =>
      exact ⟨_, _, exec_jmpd_not_taken s g hr, exec_jmpd_not_taken _ g hr, (h.popRSToR hrs).fetchWord s.p⟩
  | repd =>
    cases hr : s.rNonZero with
    | true =>
      exact ⟨_, _, exec_repd_taken s hr, exec_repd_taken _ hr, of_updated rfl rfl rfl hds.toList_eq hrs.toList_eq⟩
    | false =>
      exact ⟨_, _, exec_repd_not_taken s hr, exec_repd_not_taken _ hr,
        of_updated rfl rfl hrs.top_eq hds.toList_eq hrs.toList_popped⟩
  | repp | repz => exact ⟨_, _, rfl, rfl, of_updated rfl rfl rfl hds.toList_eq hrs.toList_eq⟩
  | nxt => exact ⟨_, _, rfl, rfl, h.fetchWord s.p⟩
  | ret =>
    have hrs' : (s.fetchWord s.r).rs.Alike ((s.withStacks ds rs).fetchWord s.r).rs := by
      rw [fetchWord_rs, fetchWord_rs]
      exact hrs
    exact ⟨_, _, rfl, rfl, (h.fetchWord s.r).popRSToR hrs'⟩
  | into => exact ⟨_, _, rfl, rfl, h.fetchToken s.p⟩
  | exit | tokExit =>
    have hrs' : (s.fetchToken s.r).rs.Alike ((s.withStacks ds rs).fetchToken s.r).rs := by
      rw [fetchToken_rs, fetchToken_rs]
      exact hrs
    exact ⟨_, _, rfl, rfl, (h.fetchToken s.r).popRSToR hrs'⟩
  | tokCall a => exact ⟨_, _, rfl, rfl, (h.link hrs).fetchWord a⟩
  | tokNest a => exact ⟨_, _, rfl, rfl, (h.link hrs).fetchToken a⟩

end State

/-- Settles O10: both machines decode the same instruction, as neither I nor the sequencer's place is in a stack. -/
theorem stackIndexUnobservable : Obligations.StackIndexUnobservable := by
  intro s t hsds hsrs htds htrs h
  rw [h.eq_withStacks]
  exact State.exec_withStacks (decode s.place s.i) ⟨hsds, htds, h.toList_ds⟩ ⟨hsrs, htrs, h.toList_rs⟩

end Sys2Proof.Machine
end

section
/-! The state right after reset (R40, R260). -/

namespace Sys2Proof.Machine

/-- Settles O53: nothing is behind a window and nothing is listed, so every word reads as unlisted. -/
theorem resetState : Obligations.ResetState := by
  have hword (b : Word) : State.reset.memRead b = Config.unlistedWord :=
    (State.memRead_plain (Devices.covers_of_no_windows rfl b)).trans (Memory.readWord_empty b)
  have hzero : Config.unlistedWord = 0 := by decide
  exact ⟨rfl, rfl, rfl, (hword 0).symm, rfl, rfl, rfl, Stack.reset_depth _, Stack.reset_depth _, rfl, rfl,
    fun b => (hword b).trans hzero⟩

end Sys2Proof.Machine
end

section
/-! What the access of a step leaves behind the bus and brings in from it (R51, R52, R54 to R56): said once for every
instruction, in terms of the access that shows on the pins. -/

namespace Sys2Proof.Machine

/-! ## What an access does -/

/-- Plain memory after a step with this access: only a write changes it (R52, R55). -/
def State.memAfter (s : State) : BusAccess → Memory
  | .write a v => s.writtenMem a v
  | .none | .read _ | .fetchWord _ | .fetchToken _ => s.mem

/-- From `s` to `t` the word this access returns has gone where it belongs, to D (R54) or to I (R56; unless a token is
injected, R233), and no access but a fetch has written I (R37). -/
def State.Takes (s t : State) : BusAccess → Prop
  | .none | .write _ _ => t.i = s.i
  | .read a => t.i = s.i ∧ t.d = s.memRead a
  | .fetchWord a => t.i = s.memRead a
  | .fetchToken a => s.held = none → t.i = s.memRead a

/-- From `s` to `t` the access on the pins of `t` was made, answered once, and no other. -/
structure State.Accessed (s t : State) : Prop where
  devices_eq : t.devices = s.devicesAfter t.bus
  mem_eq : t.mem = s.memAfter t.bus
  takes : s.Takes t t.bus

@[simp] theorem State.fetchWord_bus (s : State) (a : Word) : (s.fetchWord a).bus = .fetchWord a := by
  rw [State.fetchWord_eq]

@[simp] theorem State.fetchToken_bus (s : State) (a : Word) : (s.fetchToken a).bus = .fetchToken a := by
  obtain ⟨-, -, -, -, hbus⟩ := s.fetchToken_fetchedToken a
  exact hbus

/-- A token fetch takes the platform's word, and its answer, only when no token is injected. -/
theorem State.fetchedToken.taken {s t : State} {a : Word} (h : s.fetchedToken t a) :
    t.devices = s.devicesAfter (.fetchToken a) ∧ (s.held = none → t.i = s.memRead a) := by
  obtain ⟨h, -⟩ := h
  cases hheld : s.held with
  | none =>
    rw [hheld] at h
    obtain ⟨hi, -, hdevices⟩ := h
    exact ⟨hdevices.trans (if_pos hheld).symm, fun _ => hi⟩
  | some token =>
    rw [hheld] at h
    obtain ⟨-, -, hdevices⟩ := h
    exact ⟨hdevices.trans (if_neg (by simp [hheld])).symm, nofun⟩

theorem State.accessed_fetchWord (s : State) (a : Word) : s.Accessed (s.fetchWord a) := ⟨rfl, rfl, rfl⟩

theorem State.accessed_fetchToken (s : State) (a : Word) : s.Accessed (s.fetchToken a) := by
  obtain ⟨hdevices, htaken⟩ := (s.fetchToken_fetchedToken a).taken
  obtain ⟨-, -, -, -, -, hmem, -⟩ := s.fetchToken_frame a
  exact ⟨by rwa [State.fetchToken_bus], by rwa [State.fetchToken_bus], by rwa [State.fetchToken_bus]⟩

/-- The control group writes R and RS, which are not behind the bus, and then fetches or repeats. -/
theorem State.ControlledBy.accessed {i : Instr} {s t : State} (h : s.ControlledBy i t) : s.Accessed t := by
  cases h with
  | word r rs a =>
    obtain ⟨hdevices, hmem, htakes⟩ := State.accessed_fetchWord ((s.setR r).setRS rs) a
    exact ⟨hdevices, hmem, htakes⟩
  | token r rs a =>
    rw [State.fetchToken_setRS, State.fetchToken_setR]
    obtain ⟨hdevices, hmem, htakes⟩ := s.accessed_fetchToken a
    exact ⟨hdevices, hmem, htakes⟩
  | again r rs taken => exact ⟨rfl, rfl, rfl⟩

/-- Every instruction makes the one access on the pins: a load takes a word to D, a store writes one, and every other
opcode outside the control group leaves alone what is behind the bus. -/
theorem exec_accessed {i : Instr} {s t : State} (h : exec i s = .next t) : s.Accessed t := by
  cases i with
  | lit | ldri | lda | ldai => cases h; exact ⟨rfl, rfl, rfl, rfl⟩
  | str | stri | sta | stai => cases h; exact ⟨rfl, rfl, rfl⟩
  | get | pop | drop | push | swap | nop | eqz | inv | add | lsl | asr | lsr | overOp | dup | zero | one | nip | or
  | xor | and => cases h; exact ⟨rfl, rfl, rfl⟩
  | jmp | jmpd | jmpp | jmpz | jsr | jsrn | jsrp | jsrz | into | exit | repd | repp | repz | nxt | ret | tokExit
  | tokCall | tokNest => exact (exec_controlledBy rfl h).accessed

/-- Settles O17, a part of what every access does at a time. -/
theorem eachReadIsAnsweredOnce : Obligations.EachReadIsAnsweredOnce := by
  intro i s t h
  obtain ⟨hdevices, -, htakes⟩ := exec_accessed h
  refine ⟨hdevices, fun a hbus => ?_, fun a hbus => ?_, fun a hbus => ?_⟩
  · rw [hbus] at htakes
    obtain ⟨-, hd⟩ := htakes
    exact hd
  · rwa [hbus] at htakes
  · rwa [hbus] at htakes

/-- Settles O16: only a write changes memory, and that at the address on the bus. -/
theorem memoryChangesOnlyByBusWrite : Obligations.MemoryChangesOnlyByBusWrite := by
  intro s t h
  have hmem := (exec_accessed (i := decode s.place s.i) h).mem_eq
  constructor
  · intro b hne
    cases hbus : t.bus with
    | none | read | fetchWord | fetchToken =>
      rw [hmem, hbus] at hne
      exact absurd rfl hne
    | write a v =>
      rw [hmem, hbus] at hne
      have hb : b = a := by
        by_contra hba
        exact hne (State.writtenMem_other v hba)
      subst hb
      refine ⟨?_, v, rfl⟩
      by_contra hcovers
      exact hne (congrArg (·.readWord b) (State.writtenMem_device v (Bool.eq_true_of_not_eq_false hcovers)))
  · intro hwf b v hbus hplain
    rw [hmem, hbus]
    exact State.writtenMem_same v hwf hplain

/-! ## Which access each instruction makes (R51) -/

/-- A conditional jump or call fetches its target when the condition is met and at P when not (R110, R112). -/
theorem State.jumpIf_bus (s : State) (taken : Bool) (g : PageAddr) :
    (s.jumpIf taken g).bus = .fetchWord (if taken then pageTarget g s.p else s.p) := by
  rw [State.jumpIf_eq, State.fetchWord_bus]

theorem State.callIf_bus (s : State) (taken : Bool) (g : PageAddr) :
    (s.callIf taken g).bus = .fetchWord (if taken then pageTarget g s.p else s.p) := by
  cases taken with
  | true => exact s.link.fetchWord_bus _
  | false => exact s.fetchWord_bus _

/-! The rows of the conditional jumps with the conditions as the model tests them; each is also the row of the call with
the same condition. -/

theorem busAccessOf_jmpd (s : State) (g : PageAddr) :
    busAccessOf (.jmpd g) s = .fetchWord (if s.rNonZero then pageTarget g s.p else s.p) := by
  simp [busAccessOf, State.rNonZero_eq]

theorem busAccessOf_jmpp (s : State) (g : PageAddr) :
    busAccessOf (.jmpp g) s = .fetchWord (if s.aPositive then pageTarget g s.p else s.p) := by
  simp [busAccessOf, State.aPositive_eq]

theorem busAccessOf_jmpz (s : State) (g : PageAddr) :
    busAccessOf (.jmpz g) s = .fetchWord (if s.aZero then pageTarget g s.p else s.p) := by
  simp [busAccessOf, State.aZero_eq]

theorem exec_bus {i : Instr} {s t : State} (h : exec i s = .next t) : t.bus = busAccessOf i s := by
  cases i with
  | lit | ldri | lda | ldai | str | stri | sta | stai => cases h; rfl
  | get | pop | drop | push | swap | nop | eqz | inv | add | lsl | asr | lsr | overOp | dup | zero | one | nip | or
  | xor | and => cases h; rfl
  | jmp g => cases h; exact s.jumpIf_bus true g
  | jmpp g => cases h; rw [busAccessOf_jmpp]; exact s.jumpIf_bus s.aPositive g
  | jmpz g => cases h; rw [busAccessOf_jmpz]; exact s.jumpIf_bus s.aZero g
  | jmpd g =>
    rw [busAccessOf_jmpd]
    cases hr : s.rNonZero with
    | true => rw [exec_jmpd_taken s g hr] at h; cases h; exact State.fetchWord_bus _ _
    | false => rw [exec_jmpd_not_taken s g hr] at h; cases h; exact State.fetchWord_bus _ _
  | jsr g => cases h; exact s.callIf_bus true g
  | jsrn g => cases h; exact (s.callIf_bus _ g).trans (busAccessOf_jmpd s g).symm
  | jsrp g => cases h; exact (s.callIf_bus _ g).trans (busAccessOf_jmpp s g).symm
  | jsrz g => cases h; exact (s.callIf_bus _ g).trans (busAccessOf_jmpz s g).symm
  | repd =>
    cases hr : s.rNonZero with
    | true => rw [exec_repd_taken s hr] at h; cases h; rfl
    | false => rw [exec_repd_not_taken s hr] at h; cases h; rfl
  | repp | repz => cases h; rfl
  | nxt => cases h; exact s.fetchWord_bus s.p
  | ret => cases h; exact s.fetchWord_bus s.r
  | tokCall a => cases h; exact s.link.fetchWord_bus a
  | into => cases h; exact s.fetchToken_bus s.p
  | exit | tokExit => cases h; exact s.fetchToken_bus s.r
  | tokNest a => cases h; exact s.link.fetchToken_bus a

theorem busAccessOf_kind (i : Instr) (s : State) : (busAccessOf i s).kind = accessKindOf i := by
  cases i <;> rfl

/-- Settles O15: the row of R51 that an instruction has is of its kind. -/
theorem busAccessFollowsTable : Obligations.BusAccessFollowsTable := by
  intro i s t h
  have hbus := exec_bus h
  exact ⟨hbus, by rw [hbus, busAccessOf_kind]⟩

/-! ## What a store leaves to be read (R66, R168) -/

/-- No instruction is without a meaning (R230). -/
theorem exec_answers_next (i : Instr) (s : State) : ∃ t, exec i s = .next t := by
  cases i <;> exact ⟨_, rfl⟩

/-- Right after a write to plain memory, a read or fetch at its address returns the word written. -/
theorem State.Accessed.memRead_written {s t : State} {b v : Word} (h : s.Accessed t) (hwf : s.mem.wf = true)
    (hbus : t.bus = .write b v) (hplain : s.devices.covers b = false) : t.memRead b = v := by
  obtain ⟨hdevices, hmem, -⟩ := h
  rw [hbus] at hdevices hmem
  have hplain' : t.devices.covers b = false := (congrArg (·.covers b) hdevices).trans hplain
  calc t.memRead b = t.mem.readWord b := State.memRead_plain hplain'
    _ = (s.writtenMem b v).readWord b := congrArg (·.readWord b) hmem
    _ = v := State.writtenMem_same v hwf hplain

/-- Settles O30: what the next access takes is what a read at its address returns, and that is the word stored. -/
theorem storedWordIsReadAndFetched : Obligations.StoredWordIsReadAndFetched := by
  intro i s t b v hwf h hbus
  have hacc := exec_accessed h
  have hi : s.Takes t (.write b v) := hbus ▸ hacc.takes
  refine ⟨hi, fun hplain => ?_⟩
  have hread : t.memRead b = v := hacc.memRead_written hwf hbus hplain
  refine ⟨hread, fun j => ?_⟩
  obtain ⟨u, hu⟩ := exec_answers_next j t
  obtain ⟨-, hd, hword, htoken⟩ := eachReadIsAnsweredOnce j t u hu
  exact ⟨u, hu, exec_bus hu, fun hb => (hd b hb).trans hread, fun hb => (hword b hb).trans hread,
    fun hb hheld => (htoken b hb hheld).trans hread⟩

end Sys2Proof.Machine
end

section
/-! That a memory in canonical form is settled by the words it reads as: first the cells by the bytes they hold, then the
bytes by the words. -/

namespace Sys2Proof.Machine

theorem canonicalFrom_cons {lo k : Nat} {b : Byte} {rest : List Host.Cell} :
    canonicalFrom lo ((k, b) :: rest) = true ↔
      lo ≤ k ∧ k < 131072 ∧ b ≠ Config.unlistedByte ∧ canonicalFrom (k + 1) rest = true := by
  simp only [canonicalFrom, Bool.and_eq_true, decide_eq_true_eq, bne_iff_ne, and_assoc]

@[simp] theorem readCells_head (k : Nat) (b : Byte) (rest : List Host.Cell) : readCells ((k, b) :: rest) k = b :=
  if_pos rfl

theorem readCells_tail {k n : Nat} (b : Byte) (rest : List Host.Cell) (h : n ≠ k) :
    readCells ((k, b) :: rest) n = readCells rest n :=
  if_neg h

/-- A listed cell differs from what cells that begin after it read as there. -/
theorem readCells_head_ne {lo k : Nat} {b : Byte} {rest cs : List Host.Cell}
    (h : canonicalFrom lo ((k, b) :: rest) = true) (hcs : canonicalFrom (k + 1) cs = true) :
    readCells ((k, b) :: rest) k ≠ readCells cs k := by
  obtain ⟨-, -, hb, -⟩ := canonicalFrom_cons.mp h
  rw [readCells_head, readCells_below hcs k.lt_succ_self]
  exact hb

/-- With the same first address, the cells after it read alike too: below it nothing is listed there. -/
theorem readCells_tails_alike {k : Nat} {b b' : Byte} {rest rest' : List Host.Cell}
    (hrest : canonicalFrom (k + 1) rest = true) (hrest' : canonicalFrom (k + 1) rest' = true)
    (h : ∀ n < 131072, readCells ((k, b) :: rest) n = readCells ((k, b') :: rest') n) :
    ∀ n < 131072, readCells rest n = readCells rest' n := by
  intro n hn
  by_cases hnk : n = k
  · rw [readCells_below hrest (by omega), readCells_below hrest' (by omega)]
  · have hread := h n hn
    rwa [readCells_tail b rest hnk, readCells_tail b' rest' hnk] at hread

/-- Canonical cells that read alike are equal: the lower of two different first addresses would tell them apart. -/
theorem canonicalFrom_ext {lo : Nat} {cs cs' : List Host.Cell} (hcs : canonicalFrom lo cs = true)
    (hcs' : canonicalFrom lo cs' = true) (h : ∀ n < 131072, readCells cs n = readCells cs' n) : cs = cs' := by
  induction cs generalizing lo cs' with
  | nil =>
    cases cs' with
    | nil => rfl
    | cons c' rest' =>
      obtain ⟨-, hk', -, -⟩ := canonicalFrom_cons.mp hcs'
      exact absurd (h _ hk').symm (readCells_head_ne hcs' rfl)
  | cons c rest ih =>
    obtain ⟨k, b⟩ := c
    obtain ⟨-, hk, hb, hrest⟩ := canonicalFrom_cons.mp hcs
    cases cs' with
    | nil => exact absurd (h _ hk) (readCells_head_ne hcs rfl)
    | cons c' rest' =>
      obtain ⟨k', b'⟩ := c'
      obtain ⟨-, hk', hb', hrest'⟩ := canonicalFrom_cons.mp hcs'
      rcases Nat.lt_trichotomy k k' with hlt | rfl | hgt
      · exact absurd (h k hk) (readCells_head_ne hcs (canonicalFrom_cons.mpr ⟨hlt, hk', hb', hrest'⟩))
      · have hhead : b = b' := by simpa only [readCells_head] using h k hk
        rw [hhead, ih hrest hrest' (readCells_tails_alike hrest hrest' h)]
      · exact absurd (h k' hk').symm (readCells_head_ne hcs' (canonicalFrom_cons.mpr ⟨hgt, hk, hb, hrest⟩))

/-- The two cells of a word are its low and its high byte. -/
theorem Memory.readWord_bytes (m : Memory) (a : Word) :
    (m.readWord a).extractLsb' 0 8 = readCells m.cells (2 * a.toNat) ∧
      (m.readWord a).extractLsb' 8 8 = readCells m.cells (2 * a.toNat + 1) :=
  ⟨BitVec.extractLsb'_append_eq_right, BitVec.extractLsb'_append_eq_left⟩

theorem Memory.readCells_alike {m m' : Memory} (h : ∀ a, m.readWord a = m'.readWord a) :
    ∀ n < 131072, readCells m.cells n = readCells m'.cells n := by
  intro n hn
  have ha : (BitVec.ofNat 16 (n / 2)).toNat = n / 2 := Nat.mod_eq_of_lt (by omega)
  obtain ⟨hlow, hhigh⟩ := m.readWord_bytes (BitVec.ofNat 16 (n / 2))
  obtain ⟨hlow', hhigh'⟩ := m'.readWord_bytes (BitVec.ofNat 16 (n / 2))
  rw [h, ha] at hlow hhigh
  rw [ha] at hlow' hhigh'
  rcases Nat.mod_two_eq_zero_or_one n with h0 | h1
  · rw [show n = 2 * (n / 2) by omega, ← hlow, hlow']
  · rw [show n = 2 * (n / 2) + 1 by omega, ← hhigh, hhigh']

/-- Settles O31: words that read alike have bytes that read alike. -/
theorem canonicalMemoriesReadAlikeAreEqual : Obligations.CanonicalMemoriesReadAlikeAreEqual := by
  intro m m' hm hm' h
  exact congrArg Memory.mk (canonicalFrom_ext hm hm' (Memory.readCells_alike h))

end Sys2Proof.Machine
end

section
/-! The encoding (R80 to R95): an instruction word as its four fields, what the decoder reads back from the encoder's
bits, and what the encoder makes of what the decoder reads. -/

namespace Sys2Proof.Machine

/-! ## The four fields of a word (R80) -/

/-- The word assembled from its four fields, as R80 assembles it. -/
def wordOfFields (s3 : BitVec 1) (op0 op1 op2 : BitVec 5) : Word := s3 ++ op0 ++ op1 ++ op2

theorem ofBool_slot3Bit (w : Word) : BitVec.ofBool (slot3Bit w) = w.extractLsb' 15 1 := by
  ext j hj
  obtain rfl : j = 0 := by omega
  simp [slot3Bit]

/-- The upper fields of a word, above the ten page-address bits of format F0. -/
theorem upper_fields (w : Word) : BitVec.ofBool (slot3Bit w) ++ opBits w .s0 = w.extractLsb' 10 6 := by
  rw [ofBool_slot3Bit]
  exact BitVec.extractLsb'_append_extractLsb'_eq_extractLsb' rfl

/-- Bit 15, the opcode of slot 0 and the ten bits below it are the word (R82, format F0). -/
theorem controlBits_pageBits10 (w : Word) :
    controlBits (BitVec.ofBool (slot3Bit w)) (opBits w .s0) (pageBits10 w) = w := by
  calc controlBits (BitVec.ofBool (slot3Bit w)) (opBits w .s0) (pageBits10 w)
    _ = w.extractLsb' 10 6 ++ w.extractLsb' 0 10 := congrArg (· ++ w.extractLsb' 0 10) (upper_fields w)
    _ = w.extractLsb' 0 16 := BitVec.extractLsb'_append_extractLsb'_eq_extractLsb' rfl
    _ = w := BitVec.extractLsb'_eq_self

/-- A word is its four fields (R80). -/
theorem wordOfFields_fields (w : Word) :
    wordOfFields (BitVec.ofBool (slot3Bit w)) (opBits w .s0) (opBits w .s1) (opBits w .s2) = w := by
  calc wordOfFields (BitVec.ofBool (slot3Bit w)) (opBits w .s0) (opBits w .s1) (opBits w .s2)
    _ = w.extractLsb' 10 6 ++ w.extractLsb' 5 5 ++ w.extractLsb' 0 5 :=
      congrArg (· ++ w.extractLsb' 5 5 ++ w.extractLsb' 0 5) (upper_fields w)
    _ = w.extractLsb' 5 11 ++ w.extractLsb' 0 5 :=
      congrArg (· ++ w.extractLsb' 0 5) (BitVec.extractLsb'_append_extractLsb'_eq_extractLsb' rfl)
    _ = w.extractLsb' 0 16 := BitVec.extractLsb'_append_extractLsb'_eq_extractLsb' rfl
    _ = w := BitVec.extractLsb'_eq_self

theorem wordOfFields_or (a a' : BitVec 1) (b b' c c' d d' : BitVec 5) :
    wordOfFields a b c d ||| wordOfFields a' b' c' d' =
      wordOfFields (a ||| a') (b ||| b') (c ||| c') (d ||| d') := by
  calc wordOfFields a b c d ||| wordOfFields a' b' c' d'
    _ = (a ++ b ++ c ||| a' ++ b' ++ c') ++ (d ||| d') := BitVec.or_append
    _ = (a ++ b ||| a' ++ b') ++ (c ||| c') ++ (d ||| d') := congrArg (· ++ _) BitVec.or_append
    _ = wordOfFields (a ||| a') (b ||| b') (c ||| c') (d ||| d') := congrArg (· ++ _ ++ _) BitVec.or_append

theorem opcodeBits_s0 (v : BitVec 5) : opcodeBits .s0 v = wordOfFields 0 v 0 0 :=
  (BitVec.append_assoc (x₁ := 0#1 ++ v) (x₂ := 0#5) (x₃ := 0#5)).symm

theorem opcodeBits_s1 (v : BitVec 5) : opcodeBits .s1 v = wordOfFields 0 0 v 0 := rfl

theorem opcodeBits_s2 (v : BitVec 5) : opcodeBits .s2 v = wordOfFields 0 0 0 v := rfl

theorem controlBits_slot1 (s3 : BitVec 1) (v a : BitVec 5) :
    controlBits s3 v (.slot1 a) = wordOfFields s3 0 v a := rfl

/-! ## Reading the encoder's bits -/

theorem opBits_opcodeBits (k : OpSlot) (v : BitVec 5) : opBits (opcodeBits k v) k = v := by
  cases k with
  | s0 =>
    calc opBits (opcodeBits .s0 v) .s0
      _ = (0#1 ++ v).extractLsb' 0 5 := BitVec.extractLsb'_append_eq_of_le (Nat.le_refl 10)
      _ = v := BitVec.extractLsb'_append_eq_right
  | s1 =>
    calc opBits (opcodeBits .s1 v) .s1
      _ = (0#6 ++ v).extractLsb' 0 5 := BitVec.extractLsb'_append_eq_of_le (Nat.le_refl 5)
      _ = v := BitVec.extractLsb'_append_eq_right
  | s2 => exact BitVec.extractLsb'_append_eq_right

/-- The opcode slot a jump's page address stands for (R82). -/
def pageOpSlot : PageAddr → OpSlot
  | .slot0 _ => .s0
  | .slot1 _ => .s1

theorem opBits_controlBits (s3 : BitVec 1) (v : BitVec 5) (t : PageAddr) :
    opBits (controlBits s3 v t) (pageOpSlot t) = v := by
  cases t with
  | slot0 a =>
    calc opBits (controlBits s3 v (.slot0 a)) .s0
      _ = (s3 ++ v).extractLsb' 0 5 := BitVec.extractLsb'_append_eq_of_le (Nat.le_refl 10)
      _ = v := BitVec.extractLsb'_append_eq_right
  | slot1 a =>
    calc opBits (controlBits s3 v (.slot1 a)) .s1
      _ = (s3 ++ 0#5 ++ v).extractLsb' 0 5 := BitVec.extractLsb'_append_eq_of_le (Nat.le_refl 5)
      _ = v := BitVec.extractLsb'_append_eq_right

theorem slot3Bit_controlBits (b : Bool) (v : BitVec 5) (t : PageAddr) :
    slot3Bit (controlBits (BitVec.ofBool b) v t) = b := by
  have hbit : (BitVec.ofBool b).getLsbD 0 = b := by cases b <;> rfl
  cases t with
  | slot0 a =>
    calc slot3Bit (controlBits (BitVec.ofBool b) v (.slot0 a))
      _ = (BitVec.ofBool b ++ v).getLsbD 5 := BitVec.getLsbD_append
      _ = (BitVec.ofBool b).getLsbD 0 := BitVec.getLsbD_append
      _ = b := hbit
  | slot1 a =>
    calc slot3Bit (controlBits (BitVec.ofBool b) v (.slot1 a))
      _ = (BitVec.ofBool b ++ 0#5 ++ v).getLsbD 10 := BitVec.getLsbD_append
      _ = (BitVec.ofBool b ++ 0#5).getLsbD 5 := BitVec.getLsbD_append
      _ = (BitVec.ofBool b).getLsbD 0 := BitVec.getLsbD_append
      _ = b := hbit

theorem pageBits10_controlBits (s3 : BitVec 1) (v : BitVec 5) (a : BitVec 10) :
    pageBits10 (controlBits s3 v (.slot0 a)) = .slot0 a :=
  congrArg PageAddr.slot0 BitVec.extractLsb'_append_eq_right

theorem pageBits5_controlBits (s3 : BitVec 1) (v a : BitVec 5) : pageBits5 (controlBits s3 v (.slot1 a)) = .slot1 a :=
  congrArg PageAddr.slot1 BitVec.extractLsb'_append_eq_right

/-- A jump or call is read back from its bits, page address included. -/
theorem decode_controlBits (b : Bool) (v : BitVec 5) (t : PageAddr) :
    decode (.code t.slot) (controlBits (BitVec.ofBool b) v t) = decodeSlot01 (pageOpSlot t) t b v := by
  have hop := opBits_controlBits (BitVec.ofBool b) v t
  have hbit := slot3Bit_controlBits b v t
  cases t with
  | slot0 a =>
    have hpage := pageBits10_controlBits (BitVec.ofBool b) v a
    simp only [pageOpSlot] at hop ⊢
    simp only [PageAddr.slot, decode, hop, hbit, hpage]
  | slot1 a =>
    have hpage := pageBits5_controlBits (BitVec.ofBool b) v a
    simp only [pageOpSlot] at hop ⊢
    simp only [PageAddr.slot, decode, hop, hbit, hpage]

/-- Every code slot with an opcode reads it by the opcode map; only the control group depends on the slot. -/
theorem decode_opSlot (k : OpSlot) (w : Word) :
    ∃ c0 c1 c2 c3, decode (.code k.toSlot) w = decodeOpcode k c0 c1 c2 c3 (opBits w k) := by
  cases k with
  | s0 | s1 => simp only [OpSlot.toSlot, decode, decodeSlot01]; split <;> exact ⟨_, _, _, _, rfl⟩
  | s2 => exact ⟨_, _, _, _, rfl⟩

theorem decode_opcodeBits {k : OpSlot} {v : BitVec 5} {i : Instr}
    (h : ∀ c0 c1 c2 c3, decodeOpcode k c0 c1 c2 c3 v = i) : decode (.code k.toSlot) (opcodeBits k v) = i := by
  obtain ⟨c0, c1, c2, c3, hmap⟩ := decode_opSlot k (opcodeBits k v)
  rw [hmap, opBits_opcodeBits, h]

/-! ## Tokens (R92, R211) -/

theorem codeTokenOk_iff {a : Word} : codeTokenOk a = true ↔ a ≠ 0 ∧ a.getLsbD 0 = false := by
  rw [codeTokenOk, Bool.and_eq_true, bne_iff_ne, Bool.not_eq_true']

theorem decodeToken_call {a : Word} (h : codeTokenOk a = true) : decodeToken a = .tokCall a := by
  obtain ⟨hne, heven⟩ := codeTokenOk_iff.mp h
  rw [decodeToken, if_neg hne, if_neg (Bool.eq_false_iff.mp heven)]

theorem decodeToken_nest {a : Word} (h : listTokenOk a = true) : decodeToken a = .tokNest a := by
  have hne : a ≠ 0 := by
    rintro rfl
    cases h
  exact (if_neg hne).trans (if_pos h)

/-- Settles O1: an opcode and a jump are read back from the fields their bits stand in, a token by its class. -/
theorem decodeEncodeRoundTrip : Obligations.DecodeEncodeRoundTrip := by
  intro i hi
  cases i with
  | get | pop | drop | push | lit | ldri | lda | ldai | str | stri | sta | stai | swap | nop | eqz | inv | add | lsl
  | asr | lsr | overOp | dup | zero | one | nip | or | xor | and => exact decode_opcodeBits fun _ _ _ _ => rfl
  | jmp t | jmpd t | jmpp t | jmpz t => exact decode_controlBits false _ t
  | jsr t | jsrn t | jsrp t | jsrz t => exact decode_controlBits true _ t
  | into | exit | repd | repp | repz | nxt | ret | tokExit => rfl
  | tokCall a => exact decodeToken_call hi
  | tokNest a => exact decodeToken_nest hi

/-! ## Writing what the decoder read -/

/-- The four control-group opcodes (R81). -/
theorem isControl_values : ∀ v : BitVec 5, isControl v = true → v = 0 ∨ v = 1 ∨ v = 2 ∨ v = 3 := by decide

/-- Past the control group the opcode map holds opcodes of every slot, each at the value it is written with (R95). -/
theorem decodeOpcode_of_not_control {v : BitVec 5} (hv : isControl v = false) (k : OpSlot) (c0 c1 c2 c3 : Instr) :
    opSlotOf (decodeOpcode k c0 c1 c2 c3 v) = some k ∧ encode (decodeOpcode k c0 c1 c2 c3 v) = opcodeBits k v := by
  rw [isControl_eq, decide_eq_false_iff_not] at hv
  have hval {n : Nat} (hn : v.toNat = n) : BitVec.ofNat 5 n = v := by rw [← hn, BitVec.ofNat_toNat, BitVec.setWidth_eq]
  unfold decodeOpcode
  split
  case h_1 | h_2 | h_3 | h_4 => omega
  case h_32 =>
    have hlast : v.toNat = 31 := by simp only [imp_false] at *; omega
    exact ⟨rfl, congrArg (opcodeBits k) (hval hlast)⟩
  all_goals exact ⟨rfl, congrArg (opcodeBits k) (hval ‹_›)⟩

theorem encode_decodeSlot01_control {v : BitVec 5} (hv : isControl v = true) (k : OpSlot) (t : PageAddr) (s3 : Bool) :
    encode (decodeSlot01 k t s3 v) = controlBits (BitVec.ofBool s3) v t := by
  cases s3 <;> rcases isControl_values v hv with rfl | rfl | rfl | rfl <;> rfl

/-- An opcode outside the control group is written with the bits it was read from. -/
theorem encode_decode_opcode {k : OpSlot} {w : Word} (hv : isControl (opBits w k) = false) :
    encode (decode (.code k.toSlot) w) = opcodeBits k (opBits w k) := by
  obtain ⟨c0, c1, c2, c3, hmap⟩ := decode_opSlot k w
  rw [hmap]
  exact (decodeOpcode_of_not_control hv k c0 c1 c2 c3).2

/-- A jump or call in slot 0 is the whole word (R82, format F0). -/
theorem encode_jump_slot0 {w : Word} (hv : isControl (opBits w .s0) = true) :
    encode (decode (.code .s0) w) = w := by
  rw [decode, encode_decodeSlot01_control hv, controlBits_pageBits10]

/-- A jump or call in slot 1 has bit 15 and all bits below slot 0 (R82, format F1). -/
theorem encode_jump_slot1 {w : Word} (hv : isControl (opBits w .s1) = true) :
    encode (decode (.code .s1) w) = wordOfFields (BitVec.ofBool (slot3Bit w)) 0 (opBits w .s1) (opBits w .s2) := by
  rw [decode, encode_decodeSlot01_control hv]
  rfl

/-- `into` and `exit` have bit 15 (R84). -/
theorem encode_into_exit {w : Word} (hv : opBits w .s2 = 0) :
    encode (decode (.code .s2) w) = wordOfFields (BitVec.ofBool (slot3Bit w)) 0 0 (opBits w .s2) := by
  rw [decode, hv]
  cases slot3Bit w <;> rfl

/-- Every other opcode of slot 2, a repeat too, leaves bit 15 to slot 3 (R84). -/
theorem encode_slot2 {w : Word} (hv : opBits w .s2 ≠ 0) :
    encode (decode (.code .s2) w) = opcodeBits .s2 (opBits w .s2) := by
  cases hc : isControl (opBits w .s2) with
  | false => exact encode_decode_opcode (k := .s2) hc
  | true =>
    rw [decode]
    rcases isControl_values _ hc with h | h | h | h
    · exact absurd h hv
    all_goals rw [h]; rfl

theorem encode_slot3 (w : Word) :
    encode (decode (.code .s3) w) = wordOfFields (BitVec.ofBool (slot3Bit w)) 0 0 0 := by
  rw [decode]
  cases slot3Bit w <;> rfl

/-- Settles O2: in each format (R83) the instructions have between them the four fields of the word. -/
theorem encodeWordOfDecodeWord : Obligations.EncodeWordOfDecodeWord := by
  intro w
  have hop0 : ¬isControl (opBits w .s0) = true → encode (decode (.code .s0) w) = opcodeBits .s0 (opBits w .s0) :=
    fun h => encode_decode_opcode (Bool.eq_false_of_not_eq_true h)
  have hop1 : ¬isControl (opBits w .s1) = true → encode (decode (.code .s1) w) = opcodeBits .s1 (opBits w .s1) :=
    fun h => encode_decode_opcode (Bool.eq_false_of_not_eq_true h)
  unfold decodeWord
  split_ifs with h0 h1 h2
  · exact BitVec.or_zero.trans (encode_jump_slot0 h0)
  · refine Eq.trans ?_ (wordOfFields_fields w)
    simp [encodeWord, hop0 h0, encode_jump_slot1 h1, opcodeBits_s0, wordOfFields_or]
  · refine Eq.trans ?_ (wordOfFields_fields w)
    simp [encodeWord, hop0 h0, hop1 h1, encode_into_exit h2, opcodeBits_s0, opcodeBits_s1, wordOfFields_or]
  · refine Eq.trans ?_ (wordOfFields_fields w)
    simp [encodeWord, hop0 h0, hop1 h1, encode_slot2 h2, encode_slot3, opcodeBits_s0, opcodeBits_s1, opcodeBits_s2,
      wordOfFields_or]

end Sys2Proof.Machine
end

section
/-! What a word holds at each place (R92, R95), and where the page address of a jump leads (R85, R111). -/

namespace Sys2Proof.Machine

/-- `i` is well formed and stands at the place `pl`. -/
def LegalAt (pl : Place) (i : Instr) : Prop := i.wf = true ∧ i.place = pl

theorem legalAt_of_opSlotOf {i : Instr} {k : OpSlot} (h : opSlotOf i = some k) : LegalAt (.code k.toSlot) i := by
  cases i with
  | get | pop | drop | push | lit | ldri | lda | ldai | str | stri | sta | stai | swap | nop | eqz | inv | add | lsl
  | asr | lsr | overOp | dup | zero | one | nip | or | xor | and => cases h; exact ⟨rfl, rfl⟩
  | jmp | jmpd | jmpp | jmpz | jsr | jsrn | jsrp | jsrz | into | exit | repd | repp | repz | nxt | ret | tokExit
  | tokCall | tokNest => cases h

theorem decodeSlot01_legalAt {k : OpSlot} {t : PageAddr} (ht : t.slot = k.toSlot) (s3 : Bool) (v : BitVec 5) :
    LegalAt (.code k.toSlot) (decodeSlot01 k t s3 v) := by
  have hplace : Place.code t.slot = .code k.toSlot := congrArg Place.code ht
  cases s3 with
  | true | false =>
    exact decodeOpcode_elim (fun _ _ => legalAt_of_opSlotOf) ⟨rfl, hplace⟩ fun _ =>
      ⟨⟨rfl, hplace⟩, ⟨rfl, hplace⟩, ⟨rfl, hplace⟩⟩

/-- A token is zero, a code token or a list token (R92, R211). -/
theorem token_classes (w : Word) : w = 0 ∨ codeTokenOk w = true ∨ listTokenOk w = true := by
  rw [codeTokenOk_iff, listTokenOk]
  by_cases h0 : w = 0
  · exact .inl h0
  · cases hbit : w.getLsbD 0 with
    | false => exact .inr (.inl ⟨h0, rfl⟩)
    | true => exact .inr (.inr rfl)

/-- Settles O3, a place at a time. -/
theorem everyWordDecodesAtItsPlace : Obligations.EveryWordDecodesAtItsPlace := by
  intro pl w
  show LegalAt pl (decode pl w)
  match pl with
  | .code .s0 => exact decodeSlot01_legalAt (k := .s0) rfl _ _
  | .code .s1 => exact decodeSlot01_legalAt (k := .s1) rfl _ _
  | .code .s2 =>
    refine decodeOpcode_elim (fun _ _ => legalAt_of_opSlotOf (k := .s2)) ?_ fun _ =>
      ⟨⟨rfl, rfl⟩, ⟨rfl, rfl⟩, ⟨rfl, rfl⟩⟩
    cases slot3Bit w <;> exact ⟨rfl, rfl⟩
  | .code .s3 =>
    rw [decode]
    cases slot3Bit w <;> exact ⟨rfl, rfl⟩
  | .list =>
    rw [decode]
    rcases token_classes w with rfl | hcall | hnest
    · exact ⟨rfl, rfl⟩
    · rw [decodeToken_call hcall]
      exact ⟨hcall, rfl⟩
    · rw [decodeToken_nest hnest]
      exact ⟨hnest, rfl⟩

/-- Settles O6: the decoded instruction is well formed, as every decoded one is. -/
theorem stepRunsDecodedInstruction : Obligations.StepRunsDecodedInstruction := by
  rintro s _ rfl
  obtain ⟨hwf, -⟩ := everyWordDecodesAtItsPlace s.place s.i
  exact ⟨hwf, rfl⟩

theorem listTokenOk_eq (a : Word) : listTokenOk a = decide (a.toNat % 2 = 1) := Nat.testBit_zero a.toNat

theorem codeTokenOk_iff_toNat {a : Word} : codeTokenOk a = true ↔ a ≠ 0 ∧ a.toNat % 2 = 0 := by
  have hbit : a.getLsbD 0 = decide (a.toNat % 2 = 1) := listTokenOk_eq a
  rw [codeTokenOk_iff, hbit, decide_eq_false_iff_not, Nat.mod_two_not_eq_one]

/-- Settles O5, a class of tokens at a time. -/
theorem tokenClassesAreExclusive : Obligations.TokenClassesAreExclusive := by
  intro w
  rw [decode]
  rcases token_classes w with rfl | hcall | hnest
  · exact ⟨⟨fun _ => rfl, fun _ => rfl⟩, fun a => ⟨nofun, fun ⟨_, hne, _⟩ => absurd rfl hne⟩, fun a => ⟨nofun, nofun⟩⟩
  · obtain ⟨hne, heven⟩ := codeTokenOk_iff_toNat.mp hcall
    rw [decodeToken_call hcall]
    refine ⟨⟨nofun, fun h0 => absurd h0 hne⟩, fun a => ⟨fun h => ?_, fun h => ?_⟩, fun a => ⟨nofun, fun h => ?_⟩⟩
    · cases h
      exact ⟨rfl, hne, heven⟩
    · obtain ⟨rfl, -⟩ := h
      rfl
    · omega
  · have hodd : w.toNat % 2 = 1 := of_decide_eq_true ((listTokenOk_eq w).symm.trans hnest)
    rw [decodeToken_nest hnest]
    refine ⟨⟨nofun, fun h0 => ?_⟩, fun a => ⟨nofun, fun h => ?_⟩, fun a => ⟨fun h => ?_, fun h => ?_⟩⟩
    · subst h0
      cases hnest
    · omega
    · cases h
      exact ⟨rfl, hodd⟩
    · obtain ⟨rfl, -⟩ := h
      rfl

/-- Settles O4, by running the decoder on each of the words. -/
theorem specWordsDecode : Obligations.SpecWordsDecode := by
  unfold Obligations.SpecWordsDecode
  decide

/-! ## Jump targets (R85, R111) -/

/-- Setting one word of bits above another adds their values. -/
theorem toNat_append_eq_add {m n : Nat} (x : BitVec m) (y : BitVec n) :
    (x ++ y).toNat = x.toNat * 2 ^ n + y.toNat := by
  rw [BitVec.toNat_append, ← Nat.shiftLeft_add_eq_or_of_lt y.isLt, Nat.shiftLeft_eq]

/-- The bits of a word from `n` up are its quotient by `2 ^ n`. -/
theorem toNat_extractLsb'_upper {l n m : Nat} (p : BitVec l) (hl : l = n + m) :
    (p.extractLsb' n m).toNat = p.toNat / 2 ^ n := by
  subst hl
  rw [BitVec.extractLsb'_toNat, Nat.shiftRight_eq_div_pow]
  exact Nat.mod_eq_of_lt (Nat.div_lt_of_lt_mul (Nat.pow_add 2 n m ▸ p.isLt))

/-- Settles O37: the bits kept are P divided by the size of a page. -/
theorem targetReplacesLowBitsOfP : Obligations.TargetReplacesLowBitsOfP := by
  intro p
  refine ⟨fun a => ?_, fun a => ?_⟩
  · calc (pageTarget (.slot0 a) p).toNat
      _ = (p.extractLsb' 10 6).toNat * 2 ^ 10 + a.toNat := toNat_append_eq_add _ _
      _ = p.toNat / 2 ^ 10 * 2 ^ 10 + a.toNat := by rw [toNat_extractLsb'_upper p rfl]
  · calc (pageTarget (.slot1 a) p).toNat
      _ = (p.extractLsb' 5 11).toNat * 2 ^ 5 + a.toNat := toNat_append_eq_add _ _
      _ = p.toNat / 2 ^ 5 * 2 ^ 5 + a.toNat := by rw [toNat_extractLsb'_upper p rfl]

end Sys2Proof.Machine
end

section
/-! What an opcode does by the slot it stands in, and how slot 3 comes to be next (R90, R91). -/

namespace Sys2Proof.Machine

/-- Each of the 28 opcodes computes the same from the same state in every slot, and then moves on (R90). -/
theorem exec_eq_advance : ∀ f ∈ slotFreeOpcodes, ∀ s : State,
    ∃ (u : State) (acc : BusAccess), ∀ k, exec (f k) s = .next (u.advance k acc) := by
  intro f hf s
  fin_cases hf <;> exact ⟨_, _, fun _ => rfl⟩

theorem State.advance_setSlot (s : State) (k k' : OpSlot) (acc : BusAccess) :
    (s.advance k acc).setSlot (nextSlot k') = s.advance k' acc := rfl

/-- Settles O13: only the move to the next slot depends on the slot. -/
theorem opcodeMeansTheSameInEverySlot : Obligations.OpcodeMeansTheSameInEverySlot := by
  intro f hf k k' s
  obtain ⟨u, acc, h⟩ := exec_eq_advance f hf s
  exact ⟨u.advance k acc, h k, rfl, by rw [h k', State.advance_setSlot]⟩

/-! ## Slot 3 -/

/-- What stands in slot 2, by its opcode bits (R84, R95). -/
theorem decode_slot2_cases (w : Word) :
    ((opBits w .s2).toNat = 0 ∧ (decode (.code .s2) w = .into ∨ decode (.code .s2) w = .exit)) ∨
    ((opBits w .s2).toNat = 1 ∧ decode (.code .s2) w = .repd) ∨
    ((opBits w .s2).toNat = 2 ∧ decode (.code .s2) w = .repp) ∨
    ((opBits w .s2).toNat = 3 ∧ decode (.code .s2) w = .repz) ∨
    (4 ≤ (opBits w .s2).toNat ∧ opSlotOf (decode (.code .s2) w) = some .s2) := by
  rw [decode, decodeSlot2]
  generalize opBits w .s2 = v
  cases hv : isControl v with
  | true =>
    rcases isControl_values v hv with rfl | rfl | rfl | rfl
    · cases slot3Bit w with
      | true => exact .inl ⟨rfl, .inr rfl⟩
      | false => exact .inl ⟨rfl, .inl rfl⟩
    · exact .inr (.inl ⟨rfl, rfl⟩)
    · exact .inr (.inr (.inl ⟨rfl, rfl⟩))
    · exact .inr (.inr (.inr (.inl ⟨rfl, rfl⟩)))
  | false =>
    obtain ⟨hslot, -⟩ := decodeOpcode_of_not_control hv .s2 (if slot3Bit w then .exit else .into) .repd .repp .repz
    rw [isControl_eq, decide_eq_false_iff_not, Nat.not_lt] at hv
    exact .inr (.inr (.inr (.inr ⟨hv, hslot⟩)))

theorem State.place_of_code {s : State} {k : Slot} (hstate : s.execState = .code) (hslot : s.slot = k) :
    s.place = .code k := by
  rw [State.place, hstate, hslot]

/-- Of the instructions that do not move on to the next slot, all but the repeats lead to slot 0, by their fetch. -/
theorem exec_slot_of_not_repeat {i : Instr} {s t : State} (hi : opSlotOf i = none) (hr : isRepeat i = false)
    (h : exec i s = .next t) : t.slot = .s0 := by
  rcases (exec_controlledBy hi h).sequencer with ⟨hslot, -⟩ | ⟨hrep, -⟩
  · exact hslot
  · exact absurd (hr.symm.trans hrep) nofun

/-! A repeat leads to slot 3 when its condition fails (R127 to R129). -/

theorem exec_repd_slot {s t : State} (h : exec .repd s = .next t) : t.slot = .s3 ↔ s.r = 0 := by
  cases hr : s.rNonZero with
  | true =>
    rw [exec_repd_taken s hr] at h
    cases h
    simpa [State.rNonZero] using hr
  | false =>
    rw [exec_repd_not_taken s hr] at h
    cases h
    simpa [State.rNonZero] using hr

theorem exec_repp_slot {s t : State} (h : exec .repp s = .next t) : t.slot = .s3 ↔ 32768 ≤ s.a.toNat := by
  rw [exec_repp] at h
  cases h
  simp [State.aPositive_eq]

theorem exec_repz_slot {s t : State} (h : exec .repz s = .next t) : t.slot = .s3 ↔ s.a ≠ 0 := by
  rw [exec_repz] at h
  cases h
  simp [State.aZero_eq]

/-- From slot 2, slot 3 is next after an opcode outside the control group and after a repeat whose condition failed. -/
theorem step_to_slot3_iff {s t : State} (hpl : s.place = .code .s2) (h : step s = .next t) :
    t.slot = .s3 ↔ 4 ≤ (opBits s.i .s2).toNat ∨ ((opBits s.i .s2).toNat = 1 ∧ s.r = 0) ∨
      ((opBits s.i .s2).toNat = 2 ∧ 32768 ≤ s.a.toNat) ∨ ((opBits s.i .s2).toNat = 3 ∧ s.a ≠ 0) := by
  rw [step, hpl] at h
  rcases decode_slot2_cases s.i with ⟨hv, hi | hi⟩ | ⟨hv, hi⟩ | ⟨hv, hi⟩ | ⟨hv, hi⟩ | ⟨hv, hi⟩
  · rw [hi] at h
    simp [hv, exec_slot_of_not_repeat rfl rfl h]
  · rw [hi] at h
    simp [hv, exec_slot_of_not_repeat rfl rfl h]
  · rw [hi] at h
    simp [hv, exec_repd_slot h]
  · rw [hi] at h
    simp [hv, exec_repp_slot h]
  · rw [hi] at h
    simp [hv, exec_repz_slot h]
  · obtain ⟨hslot, -⟩ := exec_opcodeFrame hi h
    simp [hv, hslot, nextSlot]

/-- Only from slot 2 does a step lead to slot 3. -/
theorem place_of_step_to_slot3 {s t : State} (h : step s = .next t) (ht : t.slot = .s3) : s.place = .code .s2 := by
  obtain ⟨hopcode, hrepeat⟩ := decode_placedIn s.place s.i
  cases hi : opSlotOf (decode s.place s.i) with
  | some k =>
    obtain ⟨hpl, -⟩ := hopcode k hi
    obtain ⟨hslot, -⟩ := exec_opcodeFrame hi h
    cases k with
    | s0 | s1 => exact absurd (hslot.symm.trans ht) nofun
    | s2 => exact hpl
  | none =>
    cases hr : isRepeat (decode s.place s.i) with
    | true => exact (hrepeat hr).1
    | false => exact absurd ((exec_slot_of_not_repeat hi hr h).symm.trans ht) nofun

/-- A step to slot 3 fetches nothing, so it leaves `state` alone. -/
theorem step_execState_of_s3 {s t : State} (h : step s = .next t) (ht : t.slot = .s3) :
    t.execState = s.execState := by
  cases hi : opSlotOf (decode s.place s.i) with
  | some k =>
    obtain ⟨-, -, hstate, -⟩ := exec_opcodeFrame hi h
    exact hstate
  | none =>
    rcases (exec_controlledBy hi h).sequencer with ⟨hslot, -⟩ | ⟨-, -, -, hstate, -⟩
    · exact absurd (hslot.symm.trans ht) nofun
    · exact hstate

/-- Settles O12: slot 3 comes after slot 2, and `slotReached` says what stands before that. -/
theorem slotThreeReachedInTwoWays : Obligations.SlotThreeReachedInTwoWays := by
  intro s t hs h
  constructor
  · rintro ⟨-, ht⟩
    have hpl := place_of_step_to_slot3 h ht
    obtain ⟨hstate, hslot⟩ := State.place_eq_code hpl
    simp only [State.slotReached, hstate, hslot, Bool.and_eq_true, Bool.not_eq_true'] at hs
    obtain ⟨h0, h1⟩ := hs
    exact ⟨hstate, hslot, h0, h1, (step_to_slot3_iff hpl h).mp ht⟩
  · rintro ⟨hstate, hslot, -, -, hway⟩
    have ht := (step_to_slot3_iff (State.place_of_code hstate hslot) h).mpr hway
    exact ⟨(step_execState_of_s3 h ht).trans hstate, ht⟩

end Sys2Proof.Machine
end

section
/-! The control group and slot 3 (R110 to R131): what each instruction fetches or repeats, and what it does to the
return stack. The data stack and memory are none of theirs. -/

namespace Sys2Proof.Machine

/-! ## The conditions of R110 as numbers -/

theorem State.rNonZero_iff {s : State} : s.rNonZero = true ↔ s.r.toNat ≠ 0 := by
  rw [State.rNonZero_eq, decide_eq_true_iff]
  exact not_congr BitVec.toNat_eq

theorem State.rNonZero_eq_false_iff {s : State} : s.rNonZero = false ↔ s.r.toNat = 0 := by
  rw [← Bool.not_eq_true, State.rNonZero_iff, not_not]

theorem State.aPositive_iff {s : State} : s.aPositive = true ↔ s.a.toNat < 32768 := by
  rw [State.aPositive_eq, decide_eq_true_iff]

theorem State.aZero_iff {s : State} : s.aZero = true ↔ s.a.toNat = 0 := by
  rw [State.aZero_eq, decide_eq_true_iff]
  exact BitVec.toNat_eq

/-- A countdown does not pass zero (R115, R127). -/
theorem toNat_sub_one_add_one {v : Word} (h : v.toNat ≠ 0) : (v - 1).toNat + 1 = v.toNat := by bv_omega

/-! ## The return stack and the data stack -/

/-- After a pop into R the return stack is the list view of the old RS and the popped cell once more (R27, R30). -/
theorem State.UsesRS.returnStack_of_pops {s u : State} (hu : s.UsesRS u .pops) (hwf : s.rs.wf = true) :
    u.returnStack = s.rs.toList ++ s.rs.toList.take 1 := by
  obtain ⟨hrs, hr⟩ := hu
  rw [State.returnStack, hr, hrs, Stack.toList_popped hwf, Stack.toList_eq_top_cons hwf]
  rfl

/-- Linkage puts P and the old R in front of RS, whose oldest cell is lost (R30, R122). -/
theorem State.returnStack_link {s : State} (hwf : s.rs.wf = true) :
    s.link.returnStack = s.p :: s.r :: s.rs.toList.dropLast :=
  congrArg (s.p :: ·) (Stack.toList_push s.r hwf)

/-- The control group, slot 3 and the tokens leave A, D, DS and memory alone. -/
theorem exec_sameData {i : Instr} {s u : State} (hi : opSlotOf i = none) (h : exec i s = .next u) : s.sameData u := by
  obtain ⟨ha, hd, hds, hmem⟩ := (exec_controlledBy hi h).data_eq
  exact ⟨ha, hd, hds, fun b => congrArg (·.readWord b) hmem⟩

/-! ## Jumps -/

/-- What a word fetch takes does not depend on what was written to R and RS before it. -/
theorem State.fetchedWord_setR_setRS (s : State) (r : Word) (rs : Stack) (a : Word) :
    s.fetchedWord (((s.setR r).setRS rs).fetchWord a) a :=
  State.fetchWord_fetchedWord ((s.setR r).setRS rs) a

/-- A word fetch takes the word at its address and leaves both stacks and memory alone. -/
theorem State.fetchWord_spec (s : State) (a : Word) :
    s.fetchedWord (s.fetchWord a) a ∧ s.sameData (s.fetchWord a) ∧ (s.fetchWord a).r = s.r ∧
      (s.fetchWord a).rs = s.rs :=
  ⟨s.fetchWord_fetchedWord a, s.fetchWord_frame a⟩

/-- A jump on the condition `c` is a word fetch at its target, or at P where `c` fails (R112, R113). -/
theorem State.jumpIf_spec {taken : Bool} {c : Prop} [Decidable c] (s : State) (g : PageAddr) (hc : taken = true ↔ c) :
    s.fetchedWord (s.jumpIf taken g) (if c then pageTarget g s.p else s.p) ∧ s.sameData (s.jumpIf taken g) ∧
      (s.jumpIf taken g).r = s.r ∧ (s.jumpIf taken g).rs = s.rs := by
  simp only [← hc, State.jumpIf_eq]
  exact s.fetchWord_spec _

/-- Settles O38: `jmp` is taken always, the other two on their condition. -/
theorem jumpsFetchAtTheirTarget : Obligations.JumpsFetchAtTheirTarget := fun s g =>
  ⟨⟨_, exec_jmp s g, s.fetchWord_spec _⟩,
    ⟨s.jumpIf s.aPositive g, rfl, s.jumpIf_spec g State.aPositive_iff⟩,
    ⟨s.jumpIf s.aZero g, rfl, s.jumpIf_spec g State.aZero_iff⟩⟩

/-- Settles O39, by whether R is zero. -/
theorem jmpdCountsDownThenPops : Obligations.JmpdCountsDownThenPops := by
  intro s g hwf
  cases hr : s.rNonZero with
  | true =>
    have hne : s.r.toNat ≠ 0 := State.rNonZero_iff.mp hr
    have hexec := exec_jmpd_taken s g hr
    exact ⟨_, hexec, exec_sameData rfl hexec,
      fun _ => ⟨toNat_sub_one_add_one hne, rfl, s.fetchedWord_setR_setRS (s.r - 1) s.rs _⟩, fun h0 => absurd h0 hne⟩
  | false =>
    have h0 : s.r.toNat = 0 := State.rNonZero_eq_false_iff.mp hr
    have hexec := exec_jmpd_not_taken s g hr
    exact ⟨_, hexec, exec_sameData rfl hexec, fun hne => absurd h0 hne,
      fun _ => ⟨((State.UsesRS.popRSToR s).fetchWord s.p).returnStack_of_pops hwf,
        s.fetchedWord_setR_setRS s.rs.top s.rs.popped s.p⟩⟩

/-! ## Calls -/

/-- A call that is taken links and fetches. -/
theorem State.link_fetchWord_spec {s : State} (a : Word) (hwf : s.rs.wf = true) :
    s.sameData (s.link.fetchWord a) ∧ (s.link.fetchWord a).returnStack = s.p :: s.r :: s.rs.toList.dropLast ∧
      s.fetchedWord (s.link.fetchWord a) a := by
  obtain ⟨hdata, -⟩ := s.link.fetchWord_frame a
  exact ⟨hdata, State.returnStack_link hwf, s.fetchedWord_setR_setRS s.p (s.rs.push s.r) a⟩

/-- A call on the condition `c` links and fetches its target, or fetches at P where `c` fails (R112, R113). -/
theorem State.callIf_spec {s : State} {taken : Bool} {c : Prop} [Decidable c] (g : PageAddr) (hwf : s.rs.wf = true)
    (hc : taken = true ↔ c) :
    s.sameData (s.callIf taken g) ∧
      if c then
        (s.callIf taken g).returnStack = s.p :: s.r :: s.rs.toList.dropLast ∧
          s.fetchedWord (s.callIf taken g) (pageTarget g s.p)
      else (s.callIf taken g).r = s.r ∧ (s.callIf taken g).rs = s.rs ∧ s.fetchedWord (s.callIf taken g) s.p := by
  simp only [← hc]
  cases taken with
  | true => exact State.link_fetchWord_spec _ hwf
  | false =>
    obtain ⟨hfetched, hdata, hr, hrs⟩ := s.fetchWord_spec s.p
    exact ⟨hdata, hr, hrs, hfetched⟩

/-- Settles O40: `jsr` is taken always, the other three on their condition. -/
theorem callsLinkAndFetch : Obligations.CallsLinkAndFetch := fun s g hwf =>
  ⟨⟨_, exec_jsr s g, State.link_fetchWord_spec _ hwf⟩,
    ⟨s.callIf s.rNonZero g, rfl, State.callIf_spec g hwf State.rNonZero_iff⟩,
    ⟨s.callIf s.aPositive g, rfl, State.callIf_spec g hwf State.aPositive_iff⟩,
    ⟨s.callIf s.aZero g, rfl, State.callIf_spec g hwf State.aZero_iff⟩⟩

/-! ## Slot 3, and a condition that fails -/

/-- Settles O45. -/
theorem nxtAndRetFetch : Obligations.NxtAndRetFetch := fun s hwf =>
  ⟨⟨_, exec_nxt s, s.fetchWord_spec s.p⟩,
    ⟨s.returnToCode, rfl, s.fetchWord_fetchedWord s.r, exec_sameData (i := .ret) rfl rfl,
      (State.UsesRS.returnToCode s).returnStack_of_pops hwf⟩⟩

/-- Settles O41, a condition at a time. -/
theorem notTakenIsNxt : Obligations.NotTakenIsNxt := by
  intro s g
  refine ⟨fun h0 => ?_, fun hneg => ?_, fun hne => ?_, _, exec_nxt s, s.fetchWord_spec s.p⟩
  · have hr : s.rNonZero = false := by simp [State.rNonZero, h0]
    exact ⟨exec_jmpd_not_taken s g hr, exec_jsrn_not_taken s g hr⟩
  · have hp : s.aPositive = false := by simp [State.aPositive, hneg]
    exact ⟨by rw [exec_jmpp, hp]; rfl, exec_jsrp_not_taken s g hp⟩
  · have hz : s.aZero = false := by simpa [State.aZero] using hne
    exact ⟨by rw [exec_jmpz, hz]; rfl, exec_jsrz_not_taken s g hz⟩

/-! ## Slot 2 -/

/-- Settles O42: a token fetch at P, and one at R with a pop of RS, whatever the platform does at it. -/
theorem intoAndExitEnterListState : Obligations.IntoAndExitEnterListState := fun s hwf =>
  ⟨⟨_, exec_into s, s.fetchToken_fetchedToken s.p, s.fetchToken_data s.p⟩,
    ⟨s.returnToList, rfl, s.fetchToken_fetchedToken s.r, exec_sameData (i := .exit) rfl rfl,
      (State.UsesRS.returnToList s).returnStack_of_pops hwf⟩⟩

/-- Settles O43, by whether R is zero. -/
theorem repdCountsDownThenPops : Obligations.RepdCountsDownThenPops := by
  intro s hwf
  cases hr : s.rNonZero with
  | true =>
    have hne : s.r.toNat ≠ 0 := State.rNonZero_iff.mp hr
    have hexec := exec_repd_taken s hr
    exact ⟨_, hexec, exec_sameData rfl hexec, rfl, rfl, rfl, rfl, rfl, rfl,
      fun _ => ⟨rfl, toNat_sub_one_add_one hne, rfl⟩, fun h0 => absurd h0 hne⟩
  | false =>
    have h0 : s.r.toNat = 0 := State.rNonZero_eq_false_iff.mp hr
    have hexec := exec_repd_not_taken s hr
    exact ⟨_, hexec, exec_sameData rfl hexec, rfl, rfl, rfl, rfl, rfl, rfl, fun hne => absurd h0 hne,
      fun _ => ⟨rfl, (State.UsesRS.popRSToR s).returnStack_of_pops hwf⟩⟩

/-- A repeat on the condition `c` writes `slot` by it, and nothing else but the pins (R124). -/
theorem State.repeatIf_spec {again : Bool} {c : Prop} [Decidable c] (s : State) (hc : again = true ↔ c) :
    (s.repeatIf again).slot = (if c then .s0 else .s3) ∧
      s.repeatIf again = (s.setSlot (s.repeatIf again).slot).setBus .none := by
  simp only [← hc]
  exact ⟨rfl, rfl⟩

/-- Settles O44: slot 2 reads both repeats from its five opcode bits alone. -/
theorem reppAndRepzWriteOnlySlot : Obligations.ReppAndRepzWriteOnlySlot :=
  ⟨fun w hv => by rw [decode, hv]; rfl, fun w hv => by rw [decode, hv]; rfl, fun s =>
    ⟨⟨s.repeatIf s.aPositive, rfl, s.repeatIf_spec State.aPositive_iff⟩,
      ⟨s.repeatIf s.aZero, rfl, s.repeatIf_spec State.aZero_iff⟩⟩⟩

end Sys2Proof.Machine
end

section
/-! The move group (R150 to R153). What the tables of R31 and R51 say of an instruction is turned into the list views of
its stacks and its frame, for every opcode that only moves words between registers and stacks. -/

namespace Sys2Proof.Machine

/-! ## A pop and a push after one another -/

/-- A popped word pushed back is the newest again, and no cell is lost (R26, R27). -/
theorem Stack.toList_popped_push_top {st : Stack} (h : st.wf = true) : (st.popped.push st.top).toList = st.toList := by
  rw [Stack.toList_push _ (Stack.popped_wf h), Stack.toList_popped h, List.dropLast_concat,
    ← Stack.toList_eq_top_cons h]

/-- A pushed word popped again takes the place of the oldest cell, which the push has lost (R26, R27). -/
theorem Stack.toList_push_popped {st : Stack} (v : Word) (h : st.wf = true) :
    (st.push v).popped.toList = st.toList.dropLast ++ [v] := by
  rw [Stack.toList_popped (Stack.push_wf v h), Stack.top_push v h, Stack.toList_push v h, List.tail_cons]

/-! ## The stacks and the frame of an opcode that makes no access -/

variable {i : Instr} {s t : State}

/-- A pusher of DS puts the old D in front of its cells, the oldest of which is lost (R30, R31). -/
theorem exec_dataStack_of_pushes (h : exec i s = .next t) (hi : dsUse i = .pushes) (hwf : s.ds.wf = true) :
    t.dataStack = t.a :: t.d :: s.d :: s.ds.toList.dropLast := by
  have hds := dataStackTouchedOnlyByTable i s t h
  rw [hi] at hds
  rw [State.dataStack, hds, Stack.toList_push s.d hwf]

/-- A popper of DS moves the newest cell to D, and round to the end (R27, R30, R31). -/
theorem exec_dataStack_of_pops (h : exec i s = .next t) (hi : dsUse i = .pops) (hwf : s.ds.wf = true) :
    t.dataStack = t.a :: (s.ds.toList ++ s.ds.toList.take 1) := by
  have hds := dataStackTouchedOnlyByTable i s t h
  rw [hi] at hds
  obtain ⟨hds, hd⟩ := hds
  rw [State.dataStack, hds, hd, Stack.toList_popped hwf, Stack.toList_eq_top_cons hwf]
  rfl

/-- P goes with a fetch or with `lit`, each of which is an access (R35, R51). -/
theorem writesP_of_no_access (hi : accessKindOf i = .none) : writesP i = false := by
  cases i with
  | lit => cases hi
  | _ => simp only [writesP, hi]; rfl

/-- The access on the pins is none where R51 gives the instruction none. -/
theorem exec_bus_of_no_access (h : exec i s = .next t) (hi : accessKindOf i = .none) : t.bus = .none := by
  have hkind : t.bus.kind = .none := by rw [exec_bus h, busAccessOf_kind, hi]
  cases hbus : t.bus with
  | none => rfl
  | read | write | fetchWord | fetchToken => rw [hbus] at hkind; cases hkind

/-- Without an access nothing behind the bus changes (R52, R54, R55). -/
theorem State.Accessed.sameMemory (h : s.Accessed t) (hbus : t.bus = .none) : s.sameMemory t := by
  obtain ⟨hdevices, hmem, -⟩ := h
  rw [hbus] at hdevices hmem
  exact ⟨fun b => congrArg (·.readWord b) hmem, hdevices⟩

/-- An opcode of every slot that makes no access moves on to the next slot and leaves P and memory alone (R90). -/
theorem exec_frame_of_no_access {k : OpSlot} (h : exec i s = .next t) (hk : opSlotOf i = some k)
    (hi : accessKindOf i = .none) : t.p = s.p ∧ s.opcodeFrame t k ∧ s.sameMemory t ∧ t.bus = .none :=
  have hbus := exec_bus_of_no_access h hi
  ⟨exec_p_eq h (writesP_of_no_access hi), exec_opcodeFrame hk h, (exec_accessed h).sameMemory hbus, hbus⟩

/-! ## The four moves -/

/-- Settles O26: `get` and `pop` push DS, `drop` and `push` pop it; `pop` pops RS and `push` pushes it. -/
theorem moveGroupStackEffects : Obligations.MoveGroupStackEffects := by
  intro s k hds hrs
  have hget := exec_get s k
  have hpop := exec_pop s k
  have hdrop := exec_drop s k
  have hpush := exec_push s k
  exact ⟨⟨_, hget, exec_dataStack_of_pushes hget rfl hds, rfl, rfl, exec_frame_of_no_access hget rfl rfl⟩,
    ⟨_, hpop, exec_dataStack_of_pushes hpop rfl hds,
      State.UsesRS.returnStack_of_pops (returnStackTouchedOnlyByTable _ _ _ hpop) hrs,
      exec_frame_of_no_access hpop rfl rfl⟩,
    ⟨_, hdrop, exec_dataStack_of_pops hdrop rfl hds, rfl, rfl, exec_frame_of_no_access hdrop rfl rfl⟩,
    ⟨_, hpush, exec_dataStack_of_pops hpush rfl hds, congrArg (s.a :: ·) (Stack.toList_push s.r hrs),
      exec_frame_of_no_access hpush rfl rfl⟩⟩

/-- Settles O27: on DS a pop is undone by a push, on RS a push by a pop, but for the cell the push has lost. -/
theorem pushThenPopRestores : Obligations.PushThenPopRestores := by
  intro s k k' hds hrs
  refine ⟨_, _, exec_push s k, exec_pop _ k', ?_, ?_, ?_⟩
  · exact congrArg (s.a :: s.d :: ·) (Stack.toList_popped_push_top hds)
  · exact Stack.top_push s.r hrs
  · exact Stack.toList_push_popped s.r hrs

end Sys2Proof.Machine
end

section
/-! The memory group (R158 to R168). The access on the pins says what D takes and what is left behind the bus, the table
of R31 what DS does: once for every load and once for every store, at the address the opcode gives. -/

namespace Sys2Proof.Machine

variable {i : Instr} {k : OpSlot} {s t : State} {a v : Word}

/-! ## What a read and a write leave behind the bus (R52, R54, R55) -/

/-- A data read brings its word to D and changes no plain memory. -/
theorem State.Accessed.read (h : s.Accessed t) (hbus : t.bus = .read a) : t.d = s.memRead a ∧ s.readAt t a := by
  obtain ⟨hdevices, hmem, htakes⟩ := h
  rw [hbus] at hdevices hmem htakes
  obtain ⟨-, hd⟩ := htakes
  exact ⟨hd, fun b => congrArg (·.readWord b) hmem, hdevices⟩

/-- The word at the written address is the one written, or the old one where a device takes the write. -/
theorem State.readWord_writtenMem (a v : Word) (hwf : s.mem.wf = true) :
    (s.writtenMem a v).readWord a = if s.devices.covers a then s.mem.readWord a else v := by
  cases hcovers : s.devices.covers a with
  | true => rw [State.writtenMem_device v hcovers, if_pos rfl]
  | false => rw [State.writtenMem_same v hwf hcovers, if_neg Bool.false_ne_true]

/-- A data write changes at most the word at its address. -/
theorem State.Accessed.storedAt (h : s.Accessed t) (hbus : t.bus = .write a v) (hwf : s.mem.wf = true) :
    s.storedAt t a v := by
  obtain ⟨hdevices, hmem, -⟩ := h
  rw [hbus] at hdevices hmem
  refine ⟨hdevices, fun b hb => ?_, ?_⟩
  · exact (congrArg (·.readWord b) hmem).trans (State.writtenMem_other v hb)
  · exact (congrArg (·.readWord a) hmem).trans (State.readWord_writtenMem a v hwf)

/-! ## The loads -/

/-- A load puts the word it read under A, and the old D in front of the cells of DS (R159). -/
theorem exec_dataStack_of_load (h : exec i s = .next t) (hi : dsUse i = .pushes) (hbus : t.bus = .read a)
    (hwf : s.ds.wf = true) : t.dataStack = t.a :: s.memRead a :: s.d :: s.ds.toList.dropLast := by
  obtain ⟨hd, -⟩ := (exec_accessed h).read hbus
  rw [exec_dataStack_of_pushes h hi hwf, hd]

/-- A load is one read, answered once, and the move to the next slot (R51, R90). -/
theorem exec_frame_of_load (h : exec i s = .next t) (hk : opSlotOf i = some k) (hbus : t.bus = .read a) :
    s.opcodeFrame t k ∧ s.readAt t a ∧ t.bus = .read a := by
  obtain ⟨-, hread⟩ := (exec_accessed h).read hbus
  exact ⟨exec_opcodeFrame hk h, hread, hbus⟩

/-- Settles O28: the four loads are one, but for the address and the register incremented. -/
theorem loadsPutTheWordUnderA : Obligations.LoadsPutTheWordUnderA := by
  intro s k hds
  have hlit := exec_lit s k
  have hldri := exec_ldri s k
  have hlda := exec_lda s k
  have hldai := exec_ldai s k
  exact ⟨⟨_, hlit, exec_dataStack_of_load hlit rfl rfl hds, rfl, rfl, rfl, exec_frame_of_load hlit rfl rfl⟩,
    ⟨_, hldri, exec_dataStack_of_load hldri rfl rfl hds, rfl, rfl, rfl, exec_frame_of_load hldri rfl rfl⟩,
    ⟨_, hlda, exec_dataStack_of_load hlda rfl rfl hds, rfl, rfl, rfl, exec_frame_of_load hlda rfl rfl⟩,
    ⟨_, hldai, exec_dataStack_of_load hldai rfl rfl hds, rfl, rfl, rfl, exec_frame_of_load hldai rfl rfl⟩⟩

/-! ## The stores -/

/-- A store is one write and the move to the next slot (R51, R90). -/
theorem exec_frame_of_store (h : exec i s = .next t) (hk : opSlotOf i = some k) (hbus : t.bus = .write a v)
    (hwf : s.mem.wf = true) : s.opcodeFrame t k ∧ t.bus = .write a v ∧ s.storedAt t a v :=
  ⟨exec_opcodeFrame hk h, hbus, (exec_accessed h).storedAt hbus hwf⟩

/-- Settles O29: the four stores are one, but for the address and the register incremented. -/
theorem storesWriteDAndNothingElse : Obligations.StoresWriteDAndNothingElse := by
  intro s k hds hmem
  have hstr := exec_str s k
  have hstri := exec_stri s k
  have hsta := exec_sta s k
  have hstai := exec_stai s k
  exact ⟨⟨_, hstr, exec_dataStack_of_pops hstr rfl hds, rfl, rfl, rfl, exec_frame_of_store hstr rfl rfl hmem⟩,
    ⟨_, hstri, exec_dataStack_of_pops hstri rfl hds, rfl, rfl, rfl, exec_frame_of_store hstri rfl rfl hmem⟩,
    ⟨_, hsta, exec_dataStack_of_pops hsta rfl hds, rfl, rfl, rfl, exec_frame_of_store hsta rfl rfl hmem⟩,
    ⟨_, hstai, exec_dataStack_of_pops hstai rfl hds, rfl, rfl, rfl, exec_frame_of_store hstai rfl rfl hmem⟩⟩

end Sys2Proof.Machine
end

section
/-! The ALU group (R180 to R197): what the model's arithmetic makes of A and D, as numbers and as the 32-bit pair D.A,
and the frame that all sixteen opcodes share. -/

namespace Sys2Proof.Machine

/-! ## Decoding (R95) -/

/-- What a word holds at a slot is settled by its opcode bits there, past the control group whatever its other bits. -/
theorem decode_of_opBits {k : OpSlot} {v : BitVec 5} {i : Instr} (h : ∀ c0 c1 c2 c3, decodeOpcode k c0 c1 c2 c3 v = i)
    (w : Word) (hw : opBits w k = v) : decode (.code k.toSlot) w = i := by
  obtain ⟨c0, c1, c2, c3, hmap⟩ := decode_opSlot k w
  rw [hmap, hw, h]

/-! ## The arithmetic as numbers (R183 to R185) -/

theorem zeroTest_toNat (v : Word) : (zeroTest v).toNat = if v.toNat = 0 then 65535 else 0 := by
  rw [zeroTest, apply_ite BitVec.toNat]
  exact if_congr BitVec.toNat_inj.symm rfl rfl

theorem toNat_not_add_self (v : Word) : (~~~v).toNat + v.toNat = 65535 := by
  rw [BitVec.toNat_not]
  exact Nat.sub_add_cancel (Nat.le_sub_one_of_lt v.isLt)

/-- Seventeen bits hold the sum of two words (R185). -/
theorem sum17_toNat (a d : Word) : (sum17 a d).toNat = a.toNat + d.toNat := by
  have ha := BitVec.toNat_setWidth_of_le (b := a) (show 16 ≤ 17 by decide)
  have hd := BitVec.toNat_setWidth_of_le (b := d) (show 16 ≤ 17 by decide)
  rw [sum17, BitVec.toNat_add_of_lt (by omega), ha, hd]

theorem sumLow_toNat (a d : Word) : (sumLow a d).toNat = (a.toNat + d.toNat) % 65536 := by
  rw [sumLow, BitVec.extractLsb'_toNat, sum17_toNat]
  rfl

theorem sumCarry_toNat (a d : Word) : (sumCarry a d).toNat = (a.toNat + d.toNat) / 65536 := by
  rw [sumCarry, BitVec.toNat_setWidth_of_le (by decide), toNat_extractLsb'_upper _ rfl, sum17_toNat]
  rfl

/-! ## The shifts as shifts of the pair D.A (R186 to R188)

Each half of a shifted pair is first read as consecutive bits of the pair. -/

section Pair
variable (a d : Word)

theorem lslHigh_eq : lslHigh a d = (d ++ a).extractLsb' 15 16 := by
  calc d.extractLsb' 0 15 ++ a.extractLsb' 15 1
    _ = (d ++ a).extractLsb' 16 15 ++ (d ++ a).extractLsb' 15 1 := by
      rw [BitVec.extractLsb'_append_eq_of_le (by decide), BitVec.extractLsb'_append_eq_of_add_le (by decide)]
    _ = (d ++ a).extractLsb' 15 16 := BitVec.extractLsb'_append_extractLsb'_eq_extractLsb' rfl

theorem lslLow_eq : lslLow a = (d ++ a).extractLsb' 0 15 ++ 0#1 := by
  rw [BitVec.extractLsb'_append_eq_of_add_le (by decide)]
  rfl

theorem shrLow_eq : shrLow a d = (d ++ a).extractLsb' 1 16 := by
  calc d.extractLsb' 0 1 ++ a.extractLsb' 1 15
    _ = (d ++ a).extractLsb' 16 1 ++ (d ++ a).extractLsb' 1 15 := by
      rw [BitVec.extractLsb'_append_eq_of_le (by decide), BitVec.extractLsb'_append_eq_of_add_le (by decide)]
    _ = (d ++ a).extractLsb' 1 16 := BitVec.extractLsb'_append_extractLsb'_eq_extractLsb' rfl

/-- A right shift of the pair brings a bit `b` in at the top and drops bit 0; `asr` and `lsr` differ in `b` only. -/
theorem shr_pair (b : BitVec 1) :
    (b ++ d.extractLsb' 1 15 : Word) ++ shrLow a d = b ++ (d ++ a).extractLsb' 1 31 := by
  have hd : d.extractLsb' 1 15 = (d ++ a).extractLsb' 17 15 :=
    (BitVec.extractLsb'_append_eq_of_le (show 16 ≤ 17 by decide)).symm
  calc ((b ++ d.extractLsb' 1 15 : Word) ++ shrLow a d : BitVec 32)
    _ = b ++ (d ++ a).extractLsb' 17 15 ++ (d ++ a).extractLsb' 1 16 := by rw [shrLow_eq, hd]
    _ = b ++ ((d ++ a).extractLsb' 17 15 ++ (d ++ a).extractLsb' 1 16) := BitVec.append_assoc
    _ = b ++ (d ++ a).extractLsb' 1 31 :=
      congrArg (b ++ ·) (BitVec.extractLsb'_append_extractLsb'_eq_extractLsb' rfl)

theorem lsl_pair : lslHigh a d ++ lslLow a = ((d ++ a) <<< 1 : BitVec 32) := by
  calc (lslHigh a d ++ lslLow a : BitVec 32)
    _ = (d ++ a).extractLsb' 15 16 ++ ((d ++ a).extractLsb' 0 15 ++ 0#1) := by rw [lslHigh_eq, lslLow_eq a d]
    _ = (d ++ a).extractLsb' 15 16 ++ (d ++ a).extractLsb' 0 15 ++ 0#1 := BitVec.append_assoc.symm
    _ = (d ++ a).extractLsb' 0 31 ++ 0#1 :=
      congrArg (· ++ 0#1) (BitVec.extractLsb'_append_extractLsb'_eq_extractLsb' rfl)
    _ = (d ++ a) <<< 1 := (BitVec.shiftLeft_eq_concat_of_lt (show 1 < 32 by decide)).symm

theorem lsr_pair : lsrHigh d ++ shrLow a d = ((d ++ a) >>> 1 : BitVec 32) :=
  (shr_pair a d 0).trans (BitVec.ushiftRight_eq_extractLsb'_of_lt (show 1 < 32 by decide)).symm

end Pair

/-- An arithmetic right shift by one repeats the top bit above the others. -/
theorem sshiftRight_one {n : Nat} (x : BitVec (1 + n)) :
    x.sshiftRight 1 = x.extractLsb' n 1 ++ x.extractLsb' 1 n := by
  ext j hj
  rw [BitVec.getElem_sshiftRight, BitVec.getElem_append, BitVec.msb_eq_getLsbD_last]
  obtain hlow | rfl : j < n ∨ j = n := by omega
  · simp [hlow]
  · simp

theorem asr_pair (a d : Word) : asrHigh d ++ shrLow a d = BitVec.sshiftRight (d ++ a : BitVec 32) 1 := by
  have htop : d.extractLsb' 15 1 = (d ++ a).extractLsb' 31 1 :=
    (BitVec.extractLsb'_append_eq_of_le (show 16 ≤ 31 by decide)).symm
  calc (asrHigh d ++ shrLow a d : BitVec 32)
    _ = d.extractLsb' 15 1 ++ (d ++ a).extractLsb' 1 31 := shr_pair a d _
    _ = (d ++ a).extractLsb' 31 1 ++ (d ++ a).extractLsb' 1 31 := by rw [htop]
    _ = (d ++ a).sshiftRight 1 := (sshiftRight_one _).symm

/-! ## The frame of the group (R31, R90, R197) -/

variable {i : Instr} {k : OpSlot} {s t : State}

/-- RS is touched only together with R, whose refill or save it is (R24, R25). -/
theorem rsUse_of_not_writesR (hi : writesR i = false) (s : State) : rsUse i s = .untouched := by
  cases i with
  | pop | push | ldri | stri | jmpd | jsr | jsrn | jsrp | jsrz | exit | repd | ret | tokExit | tokCall | tokNest =>
    cases hi
  | get | drop | lit | lda | ldai | str | sta | stai | swap | nop | eqz | inv | add | lsl | asr | lsr | overOp | dup
  | zero | one | nip | or | xor | and | jmp | jmpp | jmpz | into | repp | repz | nxt => rfl

theorem exec_rs_eq (h : exec i s = .next t) (hi : writesR i = false) : t.rs = s.rs := by
  have hrs := returnStackTouchedOnlyByTable i s t h
  rwa [rsUse_of_not_writesR hi] at hrs

theorem exec_ds_eq (h : exec i s = .next t) (hi : dsUse i = .untouched) : t.ds = s.ds := by
  have hds := dataStackTouchedOnlyByTable i s t h
  rwa [hi] at hds

/-- An opcode of every slot that makes no access and does not write R leaves all but A, D and DS alone. -/
theorem exec_frame_of_not_writesR (h : exec i s = .next t) (hk : opSlotOf i = some k) (hacc : accessKindOf i = .none)
    (hr : writesR i = false) :
    t.r = s.r ∧ t.rs = s.rs ∧ t.p = s.p ∧ s.opcodeFrame t k ∧ s.sameMemory t ∧ t.bus = .none :=
  ⟨exec_r_eq h hr, exec_rs_eq h hr, exec_frame_of_no_access h hk hacc⟩

/-- An opcode of that kind that does not touch DS leaves all but A and D alone. -/
theorem exec_frame_of_ds_untouched (h : exec i s = .next t) (hk : opSlotOf i = some k)
    (hacc : accessKindOf i = .none) (hr : writesR i = false) (hds : dsUse i = .untouched) :
    t.ds = s.ds ∧ t.r = s.r ∧ t.rs = s.rs ∧ t.p = s.p ∧ s.opcodeFrame t k ∧ s.sameMemory t ∧ t.bus = .none :=
  ⟨exec_ds_eq h hds, exec_frame_of_not_writesR h hk hacc hr⟩

/-- A popper of DS, below A: the newest cell is now in D and has gone round to the end (R27, R30). -/
theorem exec_d_cons_ds_of_pops (h : exec i s = .next t) (hi : dsUse i = .pops) (hwf : s.ds.wf = true) :
    t.d :: t.ds.toList = s.ds.toList ++ s.ds.toList.take 1 :=
  congrArg List.tail (exec_dataStack_of_pops h hi hwf)

/-! ## The sixteen opcodes -/

/-- Settles O32: none of the four touches more than A and D, and the second `swap` undoes the first. -/
theorem swapNopEqzInv : Obligations.SwapNopEqzInv := by
  intro s k
  have hswap := exec_swap s k
  have hnop := exec_nop s k
  have heqz := exec_eqz s k
  have hinv := exec_inv s k
  refine ⟨decode_of_opBits fun _ _ _ _ => rfl, decode_of_opBits fun _ _ _ _ => rfl,
    decode_of_opBits fun _ _ _ _ => rfl, decode_of_opBits fun _ _ _ _ => rfl, ⟨_, hswap, rfl, rfl, ?_⟩,
    ⟨_, hnop, rfl, rfl, exec_frame_of_ds_untouched hnop rfl rfl rfl rfl⟩,
    ⟨_, heqz, zeroTest_toNat s.a, rfl, exec_frame_of_ds_untouched heqz rfl rfl rfl rfl⟩,
    ⟨_, hinv, toNat_not_add_self s.a, fun j hj => ?_, rfl, exec_frame_of_ds_untouched hinv rfl rfl rfl rfl⟩⟩
  · obtain ⟨hds, hr, hrs, hp, hframe, hmem, hbus⟩ := exec_frame_of_ds_untouched hswap rfl rfl rfl rfl
    exact ⟨hds, hr, hrs, hp, hframe, hmem, hbus, fun k' => ⟨_, exec_swap _ k', rfl, rfl⟩⟩
  · exact BitVec.getLsbD_not.trans (by rw [decide_eq_true hj, Bool.true_and])

/-- Settles O33: A is the remainder and D the quotient of the sum by 65536. -/
theorem addLeavesSumAndCarry : Obligations.AddLeavesSumAndCarry := by
  intro s k
  have hadd := exec_add s k
  refine ⟨_, hadd, ?_, ?_, exec_frame_of_ds_untouched hadd rfl rfl rfl rfl⟩
  · calc (sumCarry s.a s.d).toNat * 65536 + (sumLow s.a s.d).toNat
      _ = (s.a.toNat + s.d.toNat) / 65536 * 65536 + (s.a.toNat + s.d.toNat) % 65536 := by
        rw [sumCarry_toNat, sumLow_toNat]
      _ = s.a.toNat + s.d.toNat := Nat.div_add_mod' _ _
  · calc (sumCarry s.a s.d).toNat
      _ = (s.a.toNat + s.d.toNat) / 65536 := sumCarry_toNat s.a s.d
      _ ≤ 1 := by omega

/-- Settles O34: the two halves each shift leaves in D and A are those of the shifted pair. -/
theorem shiftsMoveThePair : Obligations.ShiftsMoveThePair := by
  intro s k
  have hlsl := exec_lsl s k
  have hasr := exec_asr s k
  have hlsr := exec_lsr s k
  exact ⟨decode_of_opBits fun _ _ _ _ => rfl, decode_of_opBits fun _ _ _ _ => rfl,
    decode_of_opBits fun _ _ _ _ => rfl,
    ⟨_, hlsl, lsl_pair s.a s.d, exec_frame_of_ds_untouched hlsl rfl rfl rfl rfl⟩,
    ⟨_, hasr, asr_pair s.a s.d, exec_frame_of_ds_untouched hasr rfl rfl rfl rfl⟩,
    ⟨_, hlsr, lsr_pair s.a s.d, exec_frame_of_ds_untouched hlsr rfl rfl rfl rfl⟩⟩

/-- Settles O35: all four push the old D and move A to D; they differ in the new A. -/
theorem aluPushersGrowTheStack : Obligations.AluPushersGrowTheStack := by
  intro s k hds
  have hover := exec_overOp s k
  have hdup := exec_dup s k
  have hzero := exec_zero s k
  have hone := exec_one s k
  exact ⟨⟨_, hover, exec_dataStack_of_pushes hover rfl hds, exec_frame_of_not_writesR hover rfl rfl rfl⟩,
    ⟨_, hdup, exec_dataStack_of_pushes hdup rfl hds, exec_frame_of_not_writesR hdup rfl rfl rfl⟩,
    ⟨_, hzero, exec_dataStack_of_pushes hzero rfl hds, exec_frame_of_not_writesR hzero rfl rfl rfl⟩,
    ⟨_, hone, exec_dataStack_of_pushes hone rfl hds, exec_frame_of_not_writesR hone rfl rfl rfl⟩⟩

/-- Settles O36: all four refill D from DS; `nip` keeps A, the others combine it with the old D bit by bit. -/
theorem aluPoppersRefillD : Obligations.AluPoppersRefillD := by
  intro s k hds
  have hnip := exec_nip s k
  have hor := exec_or s k
  have hxor := exec_xor s k
  have hand := exec_and s k
  exact ⟨⟨_, hnip, exec_dataStack_of_pops hnip rfl hds, exec_frame_of_not_writesR hnip rfl rfl rfl⟩,
    ⟨_, hor, fun _ _ => BitVec.getLsbD_or, exec_d_cons_ds_of_pops hor rfl hds,
      exec_frame_of_not_writesR hor rfl rfl rfl⟩,
    ⟨_, hxor, fun _ _ => BitVec.getLsbD_xor, exec_d_cons_ds_of_pops hxor rfl hds,
      exec_frame_of_not_writesR hxor rfl rfl rfl⟩,
    ⟨_, hand, fun _ _ => BitVec.getLsbD_and, exec_d_cons_ds_of_pops hand rfl hds,
      exec_frame_of_not_writesR hand rfl rfl rfl⟩⟩

end Sys2Proof.Machine
end

section
/-! The execution tokens (R210 to R214). A return to a list and a linked token fetch are the token counterparts of `ret`
and of a call that is taken; with `hold` low a token fetch is a word fetch executed in List State. -/

namespace Sys2Proof.Machine

/-! ## The return and the linked fetch -/

/-- A return to a list fetches its token at R and pops RS into R (R122, R126, R212). -/
theorem State.returnToList_spec {s : State} (hwf : s.rs.wf = true) :
    s.fetchedToken s.returnToList s.r ∧ s.sameData s.returnToList ∧
      s.returnToList.returnStack = s.rs.toList ++ s.rs.toList.take 1 :=
  ⟨s.fetchToken_fetchedToken s.r, exec_sameData (i := .tokExit) rfl rfl,
    (State.UsesRS.returnToList s).returnStack_of_pops hwf⟩

/-- Linkage leaves what the token fetch after it reads, the bus and the platform's answers, as it was. -/
theorem State.link_fetchToken_fetchedToken (s : State) (a : Word) : s.fetchedToken (s.link.fetchToken a) a :=
  s.link.fetchToken_fetchedToken a

/-- The return stack after a linked token fetch is the one the linkage made. -/
theorem State.link_fetchToken_returnStack {s : State} (a : Word) (hwf : s.rs.wf = true) :
    (s.link.fetchToken a).returnStack = s.p :: s.r :: s.rs.toList.dropLast := by
  obtain ⟨-, hr, hrs⟩ := s.link.fetchToken_data a
  rw [← State.returnStack_link hwf, State.returnStack, hr, hrs, State.returnStack]

/-- Settles O47: a return, and a linked fetch of a word or of a token at the address the token is. -/
theorem tokensReturnCallAndNest : Obligations.TokensReturnCallAndNest := by
  intro s a hwf
  obtain ⟨hcallData, hcallStack, hcallFetch⟩ := State.link_fetchWord_spec a hwf
  obtain ⟨hnestData, -⟩ := s.link.fetchToken_data a
  exact ⟨⟨s.returnToList, rfl, State.returnToList_spec hwf⟩,
    ⟨_, exec_tokCall s a, hcallFetch, hcallData, hcallStack⟩,
    ⟨_, exec_tokNest s a, s.link_fetchToken_fetchedToken a, hnestData, State.link_fetchToken_returnStack a hwf⟩⟩

/-! ## A token fetch with `hold` low -/

theorem State.held_eq_none_iff {s : State} : s.held = none ↔ s.answers.next = .memory := by
  unfold State.held
  cases s.answers.next <;> simp

/-- With `hold` low a token fetch does as a word fetch does, in the other state, and uses up its answer (R16). -/
theorem State.fetchToken_of_held_none {s : State} (h : s.held = none) (a : Word) :
    s.fetchToken a =
      (((s.fetchWord a).setExecState .list).setAnswers s.answers.rest).setBus (.fetchToken a) := by
  rw [State.fetchToken, State.held_eq_none_iff.mp h]
  rfl

/-- So the two returns differ as their fetches do (R212, R275). -/
theorem State.returnToCode_of_held_none {s : State} (h : s.held = none) :
    s.returnToCode = ((s.returnToList.setExecState .code).setAnswers s.answers).setBus (.fetchWord s.r) := by
  rw [State.returnToList, State.fetchToken_of_held_none h]
  rfl

/-- Settles O46: `exit` and `tok.exit` are the return to a list, `ret` the return to code. -/
theorem returnsDifferOnlyInState : Obligations.ReturnsDifferOnlyInState := by
  intro s
  refine ⟨rfl, fun hheld => ⟨s.returnToList, rfl, ?_, congrArg _ (State.returnToCode_of_held_none hheld)⟩⟩
  obtain ⟨-, -, -, hanswers, -⟩ := s.fetchToken_fetchedToken s.r
  exact hanswers

end Sys2Proof.Machine
end

section
/-! Interrupts (R230 to R239). An instruction either does the same whatever the platform would answer at token fetches,
or is one of the four that make a token fetch, where the answer decides between two outcomes. -/

namespace Sys2Proof.Machine

/-! ## Every step answers (R230) -/

/-- Settles O7: the decoded instruction has a meaning, as each has. -/
theorem everyStepAnswersNext : Obligations.EveryStepAnswersNext :=
  fun s => exec_answers_next (decode s.place s.i) s

/-! ## Instructions that make no token fetch (R233) -/

theorem State.jumpIf_setAnswers (s : State) (as : TokenAnswers) (taken : Bool) (g : PageAddr) :
    (s.setAnswers as).jumpIf taken g = (s.jumpIf taken g).setAnswers as := by
  cases taken <;> rfl

theorem State.callIf_setAnswers (s : State) (as : TokenAnswers) (taken : Bool) (g : PageAddr) :
    (s.setAnswers as).callIf taken g = (s.callIf taken g).setAnswers as := by
  cases taken <;> rfl

/-- Without a token fetch an instruction neither looks at the answers to token fetches nor uses one up. -/
theorem exec_setAnswers {i : Instr} {s t : State} (hi : accessKindOf i ≠ .token) (h : exec i s = .next t)
    (as : TokenAnswers) : exec i (s.setAnswers as) = .next (t.setAnswers as) := by
  cases i with
  | into | exit | tokExit | tokNest => exact absurd rfl hi
  | get | pop | drop | push | lit | ldri | lda | ldai | str | stri | sta | stai | swap | nop | eqz | inv | add | lsl
  | asr | lsr | overOp | dup | zero | one | nip | or | xor | and => cases h; rfl
  | jmp g | jmpp g | jmpz g => cases h; exact congrArg _ (s.jumpIf_setAnswers as _ g)
  | jsr g | jsrn g | jsrp g | jsrz g => cases h; exact congrArg _ (s.callIf_setAnswers as _ g)
  | jmpd g =>
    cases hr : s.rNonZero with
    | true => rw [exec_jmpd_taken s g hr] at h; cases h; exact exec_jmpd_taken (s.setAnswers as) g hr
    | false => rw [exec_jmpd_not_taken s g hr] at h; cases h; exact exec_jmpd_not_taken (s.setAnswers as) g hr
  | repd =>
    cases hr : s.rNonZero with
    | true => rw [exec_repd_taken s hr] at h; cases h; exact exec_repd_taken (s.setAnswers as) hr
    | false => rw [exec_repd_not_taken s hr] at h; cases h; exact exec_repd_not_taken (s.setAnswers as) hr
  | repp | repz | nxt | ret | tokCall => cases h; rfl

/-- Settles O49: the decoded instruction does not depend on the answers either. -/
theorem onlyTokenFetchesUseTokenAnswers : Obligations.OnlyTokenFetchesUseTokenAnswers := by
  intro s hi
  obtain ⟨t, h⟩ := everyStepAnswersNext s
  exact ⟨t, h, exec_setAnswers hi h⟩

/-- The answers that are left are those there were: the same step from `s` with its own answers shows it. -/
theorem exec_answers_eq {i : Instr} {s t : State} (hi : accessKindOf i ≠ .token) (h : exec i s = .next t) :
    t.answers = s.answers := by
  have hsame : t = t.setAnswers s.answers := Host.Outcome.next.inj (h.symm.trans (exec_setAnswers hi h s.answers))
  rw [hsame, State.setAnswers_answers]

/-! ## The four instructions that make a token fetch (R233) -/

theorem accessKindOf_eq_token_iff {i : Instr} :
    accessKindOf i = .token ↔ i = .into ∨ i = .exit ∨ i = .tokExit ∨ ∃ a, i = .tokNest a := by
  constructor
  · intro h
    cases i with
    | into => exact .inl rfl
    | exit => exact .inr (.inl rfl)
    | tokExit => exact .inr (.inr (.inl rfl))
    | tokNest a => exact .inr (.inr (.inr ⟨a, rfl⟩))
    | _ => cases h
  · rintro (rfl | rfl | rfl | ⟨a, rfl⟩) <;> rfl

/-- The pop of a return to a list can as well come before its fetch, which does not look at R or RS (R126). -/
theorem State.returnToList_eq_fetchToken (s : State) :
    s.returnToList = ((s.setR s.rs.top).setRS s.rs.popped).fetchToken s.r := by
  rw [State.returnToList_eq, State.fetchToken_setRS, State.fetchToken_setR]
  rfl

/-- Each of the four writes R and RS and makes a token fetch, at an address that does not depend on the answers. -/
theorem exec_eq_fetchToken {i : Instr} (s : State) (hi : accessKindOf i = .token) :
    ∃ r rs addr, ∀ as, exec i (s.setAnswers as) = .next ((((s.setR r).setRS rs).setAnswers as).fetchToken addr) := by
  rcases accessKindOf_eq_token_iff.mp hi with rfl | rfl | rfl | ⟨a, rfl⟩
  · exact ⟨s.r, s.rs, s.p, fun _ => rfl⟩
  · exact ⟨s.rs.top, s.rs.popped, s.r, fun as => congrArg _ (s.setAnswers as).returnToList_eq_fetchToken⟩
  · exact ⟨s.rs.top, s.rs.popped, s.r, fun as => congrArg _ (s.setAnswers as).returnToList_eq_fetchToken⟩
  · exact ⟨s.p, s.rs.push s.r, a, fun _ => rfl⟩

theorem State.fetchToken_of_memory {s : State} (a : Word) (h : s.answers.next = .memory) :
    s.fetchToken a = (s.setAnswers s.answers.rest).takeToken a := by
  rw [State.fetchToken, h]

theorem State.fetchToken_of_inject {s : State} {token : Word} (a : Word) (h : s.answers.next = .inject token) :
    s.fetchToken a = (s.setAnswers s.answers.rest).takeInjected a token := by
  rw [State.fetchToken, h]

/-- Settles O48: the two fetches are at one address, and differ as taking a token from memory and an injected one do. -/
theorem injectionReplacesOnlyToken : Obligations.InjectionReplacesOnlyToken := by
  refine ⟨fun _ => accessKindOf_eq_token_iff, fun i s token low high hi hlow hhigh => ?_⟩
  obtain ⟨r, rs, addr, hfetch⟩ := exec_eq_fetchToken s hi
  have hexecLow := hfetch low
  have hexecHigh := hfetch high
  rw [State.fetchToken_of_memory addr hlow] at hexecLow
  rw [State.fetchToken_of_inject addr hhigh] at hexecHigh
  refine ⟨_, addr, hexecLow, rfl, rfl, rfl, rfl, hexecHigh, fun u hu => ?_⟩
  rw [hexecHigh] at hu
  cases hu
  rfl

/-! ## A stuck line (R234) -/

/-- With the line stuck, an injected token is the answer at every token fetch, and using it up changes nothing. -/
theorem State.stuckHigh.answers {s : State} {token : Word} (h : s.stuckHigh token) :
    s.answers.next = .inject token ∧ s.answers.rest = s.answers := by
  rw [State.stuckHigh] at h
  rw [h]
  exact ⟨rfl, rfl⟩

/-- Settles O51: a token fetch uses up one of the answers that never end, and nothing else uses up any. -/
theorem stuckLineOverridesEveryTokenFetch : Obligations.StuckLineOverridesEveryTokenFetch := by
  intro s t token hstuck (h : exec (decode s.place s.i) s = .next t)
  by_cases hi : accessKindOf (decode s.place s.i) = .token
  · obtain ⟨hnext, hrest⟩ := hstuck.answers
    obtain ⟨r, rs, addr, hfetch⟩ := exec_eq_fetchToken s hi
    have hexec := hfetch s.answers
    rw [State.fetchToken_of_inject (s := ((s.setR r).setRS rs).setAnswers s.answers) addr hnext] at hexec
    cases h.symm.trans hexec
    refine ⟨hrest.trans hstuck, fun addr' hbus => ?_⟩
    cases hbus
    exact ⟨rfl, rfl⟩
  · refine ⟨(exec_answers_eq hi h).trans hstuck, fun addr hbus => absurd ?_ hi⟩
    rw [← busAccessOf_kind _ s, ← exec_bus h, hbus]
    rfl

end Sys2Proof.Machine
end

section
/-! An interrupt and its handler's return (R238, R239), and the same return when it is overridden in turn (R234): one
round trip of the return stack, which ends in a token fetch at the displaced token whatever the platform does there. -/

namespace Sys2Proof.Machine

/-- A token that is not zero, a code or a list one, links (R213, R214). -/
theorem step_token_links {s : State} (hstate : s.execState = .list) (hi : s.i ≠ 0) (hwf : s.rs.wf = true) :
    ∃ t, step s = .next t ∧ t.returnStack = s.p :: s.r :: s.rs.toList.dropLast := by
  obtain ⟨-, ⟨tc, hcall, -, -, hcallStack⟩, ⟨tn, hnest, -, -, hnestStack⟩⟩ := tokensReturnCallAndNest s s.i hwf
  have hstep : step s = exec (decodeToken s.i) s := by rw [step, State.place, hstate, decode]
  rw [hstep]
  rcases token_classes s.i with h0 | hcode | hlist
  · exact absurd h0 hi
  · exact ⟨tc, by rw [decodeToken_call hcode, hcall], hcallStack⟩
  · exact ⟨tn, by rw [decodeToken_nest hlist, hnest], hnestStack⟩

theorem step_returnToList {u : State} (hu : decode u.place u.i = .exit ∨ decode u.place u.i = .tokExit) :
    step u = .next u.returnToList := by
  rw [step]
  rcases hu with hu | hu <;> rw [hu] <;> rfl

/-- A return to a list fetches its token at the top of the return stack, and moves the word under it to R and round to
the end (R126, R212). -/
theorem State.returnToList_of_returnStack {u : State} {p r : Word} {L : List Word} (hwf : u.rs.wf = true)
    (hstack : u.returnStack = p :: r :: L) :
    u.fetchedToken u.returnToList p ∧ u.returnToList.returnStack = r :: (L ++ [r]) := by
  obtain ⟨hr, hrs⟩ := List.cons.inj hstack
  obtain ⟨hfetched, -, hreturned⟩ := State.returnToList_spec hwf
  rw [hr] at hfetched
  rw [hrs] at hreturned
  exact ⟨hfetched, hreturned⟩

/-- A return from a handler that left the return stack as it found it is a token fetch at the P of the interrupted
program and gives back its R (R238, R239). -/
theorem interrupt_roundTrip {s : State} (hstate : s.execState = .list) (hi : s.i ≠ 0) (hwf : s.rs.wf = true) :
    ∃ t, step s = .next t ∧ t.r = s.p ∧ ∀ u : State, u.rs.wf = true → u.returnStack = t.returnStack →
      decode u.place u.i = .exit ∨ decode u.place u.i = .tokExit →
      ∃ v, step u = .next v ∧ u.fetchedToken v s.p ∧ v.r = s.r ∧ v.rs.toList = s.rs.toList.dropLast ++ [s.r] := by
  obtain ⟨t, hstep, hlinked⟩ := step_token_links hstate hi hwf
  refine ⟨t, hstep, List.head_eq_of_cons_eq hlinked, fun u huwf hsame hu => ?_⟩
  obtain ⟨hfetched, hreturned⟩ := State.returnToList_of_returnStack huwf (hsame.trans hlinked)
  obtain ⟨hr, hrs⟩ := List.cons.inj hreturned
  exact ⟨u.returnToList, step_returnToList hu, hfetched, hr, hrs⟩

theorem State.fetchedToken.of_held_none {s t : State} {a : Word} (h : s.fetchedToken t a) (hheld : s.held = none) :
    t.execState = .list ∧ t.i = s.memRead a ∧ t.p = a + 1 := by
  obtain ⟨htaken, hlist, -⟩ := h
  rw [hheld] at htaken
  obtain ⟨hi, hp, -⟩ := htaken
  exact ⟨hlist, hi, hp⟩

theorem State.fetchedToken.of_held_some {s t : State} {a token : Word} (h : s.fetchedToken t a)
    (hheld : s.held = some token) : t.execState = .list ∧ t.i = token ∧ t.p = a := by
  obtain ⟨htaken, hlist, -⟩ := h
  rw [hheld] at htaken
  obtain ⟨hi, hp, -⟩ := htaken
  exact ⟨hlist, hi, hp⟩

/-- Settles O50: the round trip with `hold` low at its last fetch. -/
theorem interruptReturnsToDisplacedToken : Obligations.InterruptReturnsToDisplacedToken := by
  intro s hstate hi hwf
  obtain ⟨t, hstep, htr, hreturn⟩ := interrupt_roundTrip hstate hi hwf
  refine ⟨t, hstep, htr, fun u huwf hsame hheld hu => ?_⟩
  obtain ⟨v, hv, hfetched, hr, hrs⟩ := hreturn u huwf hsame hu
  obtain ⟨hlist, hvi, hvp⟩ := hfetched.of_held_none hheld
  exact ⟨v, hv, hlist, hvi, hvp, hr, hrs⟩

/-- Settles O52: the round trip with `hold` high at its last fetch. -/
theorem overriddenReturnKeepsTheDisplacedToken : Obligations.OverriddenReturnKeepsTheDisplacedToken := by
  intro s token hstate hi hwf
  obtain ⟨t, hstep, htr, hreturn⟩ := interrupt_roundTrip hstate hi hwf
  refine ⟨t, hstep, htr, fun u huwf hsame hheld hu => ?_⟩
  obtain ⟨v, hv, hfetched, hr, hrs⟩ := hreturn u huwf hsame hu
  obtain ⟨hlist, hvi, hvp⟩ := hfetched.of_held_some hheld
  exact ⟨v, hv, hlist, hvi, hvp, hr, hrs⟩

end Sys2Proof.Machine
end
